-- ==== Sys2Proof/Word.lean ====
section
/-! DEFINITION. The two word types of the block (00_scope.md rule R9). -/

namespace Sys2Proof

/-- `u8`: slave identifiers, function codes, bytes of the informative codec (R9). -/
abbrev Byte := BitVec 8

/-- `u16`: addresses, quantities and register values (R9). -/
abbrev Word := BitVec 16

end Sys2Proof
end

