-- ==== Sys2Proof/Config.lean ====
section
/-! DEFINITION. What one construction of the block fixes (00_scope.md rule R7), and the free values:
the answers the spec leaves to the external codec (42_dispatcher.md rule R170). -/

namespace Sys2Proof

/-- The codec's own error value, opaque to the block, which only passes it on (R94; 92 D21; log 17). -/
structure CodecError where
  token : Nat
  deriving DecidableEq, Repr, Inhabited

/-- An answer on the port `enc_rsp` (R80): `Ok(n)` or `EncodeError(e)`. -/
inductive EncoderAnswer where
  | ok (n : Nat)
  | encodeError (e : CodecError)
  deriving DecidableEq, Repr, Inhabited

/-- Which of the two encoders of R170 is attached. -/
inductive CodecKind where
  /-- The encoder of which the block assumes only that it answers: the answer is a draw. -/
  | abstract
  /-- The informative codec of R97 to R99. -/
  | informative
  deriving DecidableEq, Repr

/-- `SLAVE_ID` of `State.reset` (R7, R27). DESIGN CHOICE, unsafe (log 7): the configuration of the
spec's own programs, 95_test_vectors.md L3; `State.construct` takes any other. -/
def Config.slaveId : Byte := 0x11#8

/-- `C` of `State.reset` (R7, R29). DESIGN CHOICE, unsafe (log 7). -/
def Config.lenC : Word := 16#16

/-- `D` of `State.reset` (R7, R29). DESIGN CHOICE, unsafe (log 7). -/
def Config.lenD : Word := 8#16

/-- `H` of `State.reset` (R7, R29). DESIGN CHOICE, unsafe (log 7). -/
def Config.lenH : Word := 8#16

/-- `I` of `State.reset` (R7, R29). DESIGN CHOICE, unsafe (log 7). -/
def Config.lenI : Word := 4#16

/-- The default `OUT_CAP` of the spec's frame syntax (R100). PRESUMED by the spec (93 GK12), safe: used
only where a frame is placed by `State.withFetchWord` (log 15). -/
def Config.defaultCap : Nat := 256

/-- FREE VALUE (R170, U7; log 6): what the external encoder answers to the `k`-th encode request where
no answer is scripted. Safe: nothing in Lean can evaluate it. -/
opaque Config.encoderDraw (k : Nat) : EncoderAnswer

/-- FREE VALUE (R94, U9; log 6): the error value that goes with the `k`-th encode request where the
draw is no admissible `Ok(n)`. Safe: nothing in Lean can evaluate it. -/
opaque Config.encoderError (k : Nat) : CodecError

end Sys2Proof
end

