-- ==== Sys2Proof/Syntax.lean ====
section
/-! DEFINITION. The request records, which are the block's instructions (30_encoding.md rule R82), one
constructor per row of opcode_table.json. -/

namespace Sys2Proof

/-- A request record (R82). Operand order is the spec's: `addr`, then `qty` or `value`, then `values`. -/
inductive Instr where
  /-- function code 0x01 (R190) -/
  | readCoils (addr qty : Word)
  /-- function code 0x02 (R191) -/
  | readDiscreteInputs (addr qty : Word)
  /-- function code 0x03 (R192) -/
  | readHoldingRegisters (addr qty : Word)
  /-- function code 0x04 (R193) -/
  | readInputRegisters (addr qty : Word)
  /-- function code 0x05 (R210) -/
  | writeSingleCoil (addr : Word) (value : Bool)
  /-- function code 0x06 (R211) -/
  | writeSingleRegister (addr value : Word)
  /-- function code 0x0F (R212) -/
  | writeMultipleCoils (addr qty : Word) (values : List Bool)
  /-- function code 0x10 (R213) -/
  | writeMultipleRegisters (addr qty : Word) (values : List Word)
  /-- every other function code (R167) -/
  | unsupported (fc : Byte)
  deriving DecidableEq, Repr

end Sys2Proof
end

