-- ==== Sys2Proof/WellFormed.lean ====
section
/-! DEFINITION. Which request records the `frame` port admits (30_encoding.md rules R82, R86). -/

namespace Sys2Proof

/-- The eight function codes that select an operation (R84). PRESUMED by the spec itself (93 GK1). -/
def supportedCodes : List Byte :=
  [0x01#8, 0x02#8, 0x03#8, 0x04#8, 0x05#8, 0x06#8, 0x0F#8, 0x10#8]

/-- A record the port admits: a multiple write carries exactly `qty` values (R86), and `Unsupported`
carries a code that is none of the eight (R82; log 18). The field types bound everything else (R85). -/
def Instr.wellFormed : Instr → Bool
  | .readCoils _ _ => true
  | .readDiscreteInputs _ _ => true
  | .readHoldingRegisters _ _ => true
  | .readInputRegisters _ _ => true
  | .writeSingleCoil _ _ => true
  | .writeSingleRegister _ _ => true
  | .writeMultipleCoils _ qty values => values.length == qty.toNat
  | .writeMultipleRegisters _ qty values => values.length == qty.toNat
  | .unsupported fc => !supportedCodes.contains fc

end Sys2Proof
end

