-- ==== Sys2Proof/Decode.lean ====
section
/-! DEFINITION. The informative codec's request side (30_encoding.md rules R92, R97, R99): bit packing,
request PDUs and RTU ADUs, decoded and encoded, and the opcode table's numbering of a request's bits.
The block itself never reads bytes (R4, R51): what this file decodes is what the codec would deliver.
PRESUMED by the spec itself (93 GK4 to GK9): every layout here is marked there as general knowledge. -/

namespace Sys2Proof

/-- `ceil(n / 8)`, the bytes that hold `n` bits (R92). -/
def byteCount (n : Nat) : Nat := (n + 7) / 8

/-- Byte `j` of `PackBits`: bit `b` is element `8*j + b`, and bits past the end are 0 (R92). -/
def packByte (bits : List Bool) (j : Nat) : Byte :=
  BitVec.ofNat 8 (((List.range 8).map fun b => if bits[8 * j + b]? = some true then 2 ^ b else 0).sum)

/-- `PackBits(bits)` (R92). -/
def packBits (bits : List Bool) : List Byte :=
  (List.range (byteCount bits.length)).map (packByte bits)

/-- The first `n` bits of packed bytes, in the order of R92: the codec's reading of a
WriteMultipleCoils request (R52). DESIGN CHOICE (log 14): R52 and R97 do not say what the codec does
with bits of the last byte past the `n`-th that are not 0; they are ignored. -/
def unpackBits (n : Nat) (bytes : List Byte) : List Bool :=
  (List.range n).map fun k => (bytes.getD (k / 8) 0#8).getLsbD (k % 8)

/-- The two bytes of a 16-bit field, more significant first (R51, R97). -/
def wordBytes (w : Word) : List Byte := [w.extractLsb' 8 8, w.extractLsb' 0 8]

/-- A 16-bit field from its two bytes, more significant first (R51, R97). -/
def bytesWord (hi lo : Byte) : Word := hi ++ lo

/-- The bytes of consecutive 16-bit fields (R97). -/
def wordsBytes : List Word → List Byte
  | [] => []
  | w :: ws => wordBytes w ++ wordsBytes ws

/-- Consecutive 16-bit fields from their bytes (R97). A last odd byte names no field and is dropped. -/
def bytesWords : List Byte → List Word
  | hi :: lo :: rest => bytesWord hi lo :: bytesWords rest
  | _ => []

/-- Why the codec's request decoder answers `DecodeError`: the spec leaves the choice and the value to
the codec (93 U3, U4, U9; log 14). Nothing here stops the machine. -/
inductive DecodeReject where
  /-- no function code at all -/
  | empty
  /-- fewer bytes than the function code's format needs (R97) -/
  | truncated
  /-- a WriteSingleCoil value other than 0xFF00 and 0x0000 (R97, 93 U4) -/
  | coilValue
  /-- a byte count `N` that does not agree with the quantity (R97) -/
  | byteCount
  /-- bytes left over between the PDU of one of the eight requests and the CRC (R99; log 14) -/
  | trailing
  /-- a CRC that is not the frame's (R99) -/
  | crc
  deriving DecidableEq, Repr

/-- The error value the codec attaches to a rejection: the model's own tokens (R81, 93 U9; log 14). -/
def DecodeReject.error : DecodeReject → CodecError
  | .empty => ⟨1⟩
  | .truncated => ⟨2⟩
  | .coilValue => ⟨3⟩
  | .byteCount => ⟨4⟩
  | .trailing => ⟨5⟩
  | .crc => ⟨6⟩

/-- The two 16-bit fields after the function code, and the bytes after them (R97). -/
def decodeHeader : List Byte → Except DecodeReject (Word × Word × List Byte)
  | a1 :: a0 :: w1 :: w0 :: rest => .ok (bytesWord a1 a0, bytesWord w1 w0, rest)
  | _ => .error .truncated

/-- A request with an address and one more 16-bit field and nothing after them (R97). -/
def decodePair (make : Word → Word → Instr) (body : List Byte) :
    Except DecodeReject (Instr × List Byte) :=
  match decodeHeader body with
  | .error r => .error r
  | .ok (addr, w, rest) => .ok (make addr w, rest)

/-- The value field of WriteSingleCoil: `FF 00` is true, `00 00` is false (R97); any other value is
rejected, which is one of the codec's choices (93 U4; log 14). -/
def decodeCoilValue (w : Word) : Except DecodeReject Bool :=
  if w = 0xFF00#16 then .ok true else if w = 0#16 then .ok false else .error .coilValue

/-- A WriteSingleCoil request (R97). -/
def decodeSingleCoil (body : List Byte) : Except DecodeReject (Instr × List Byte) :=
  match decodeHeader body with
  | .error r => .error r
  | .ok (addr, w, rest) =>
    match decodeCoilValue w with
    | .error r => .error r
    | .ok v => .ok (.writeSingleCoil addr v, rest)

/-- A request with a byte count `N`, which `want qty` gives, and `N` data bytes (R97). -/
def decodeMultiple (want : Nat → Nat) (make : Word → Word → List Byte → Instr) (body : List Byte) :
    Except DecodeReject (Instr × List Byte) :=
  match decodeHeader body with
  | .error r => .error r
  | .ok (_, _, []) => .error .truncated
  | .ok (addr, qty, n :: data) =>
    if n.toNat = want qty.toNat then
      if n.toNat ≤ data.length then .ok (make addr qty (data.take n.toNat), data.drop n.toNat)
      else .error .truncated
    else .error .byteCount

/-- A request PDU's bytes to its record and the bytes after it (R84, R97). Total on any bytes; every
function code that is none of the eight decodes to `Unsupported(fc)` (R87; 93 U3, log 14). -/
def decode : List Byte → Except DecodeReject (Instr × List Byte)
  | [] => .error .empty
  | fc :: body =>
    match fc.toNat with
    | 0x01 => decodePair .readCoils body
    | 0x02 => decodePair .readDiscreteInputs body
    | 0x03 => decodePair .readHoldingRegisters body
    | 0x04 => decodePair .readInputRegisters body
    | 0x05 => decodeSingleCoil body
    | 0x06 => decodePair .writeSingleRegister body
    | 0x0F => decodeMultiple byteCount
        (fun addr qty data => .writeMultipleCoils addr qty (unpackBits qty.toNat data)) body
    | 0x10 => decodeMultiple (fun n => 2 * n)
        (fun addr qty data => .writeMultipleRegisters addr qty (bytesWords data)) body
    | _ => .ok (.unsupported fc, body)

/-- The function code of a request record, its tag (R82, R83). -/
def Instr.functionCode : Instr → Byte
  | .readCoils _ _ => 0x01#8
  | .readDiscreteInputs _ _ => 0x02#8
  | .readHoldingRegisters _ _ => 0x03#8
  | .readInputRegisters _ _ => 0x04#8
  | .writeSingleCoil _ _ => 0x05#8
  | .writeSingleRegister _ _ => 0x06#8
  | .writeMultipleCoils _ _ _ => 0x0F#8
  | .writeMultipleRegisters _ _ _ => 0x10#8
  | .unsupported fc => fc

/-- The wire value of a coil (R97). -/
def coilWord (v : Bool) : Word := if v then 0xFF00#16 else 0#16

/-- The bytes of a request PDU after its function code (R97). A byte count above 255 does not fit its
one byte and is cut to its low eight bits (log 19). -/
def Instr.operandBytes : Instr → List Byte
  | .readCoils addr qty => wordBytes addr ++ wordBytes qty
  | .readDiscreteInputs addr qty => wordBytes addr ++ wordBytes qty
  | .readHoldingRegisters addr qty => wordBytes addr ++ wordBytes qty
  | .readInputRegisters addr qty => wordBytes addr ++ wordBytes qty
  | .writeSingleCoil addr v => wordBytes addr ++ wordBytes (coilWord v)
  | .writeSingleRegister addr v => wordBytes addr ++ wordBytes v
  | .writeMultipleCoils addr qty values => wordBytes addr ++ wordBytes qty ++
      BitVec.ofNat 8 (byteCount qty.toNat) :: packBits values
  | .writeMultipleRegisters addr qty values => wordBytes addr ++ wordBytes qty ++
      BitVec.ofNat 8 (2 * qty.toNat) :: wordsBytes values
  | .unsupported _ => []

/-- A request record's PDU (R97). -/
def encode (i : Instr) : List Byte := i.functionCode :: i.operandBytes

/-- A record whose byte count, where it has one, fits the one byte the PDU gives it (R97). -/
def Instr.encodable : Instr → Bool
  | .writeMultipleCoils _ qty _ => byteCount qty.toNat ≤ 255
  | .writeMultipleRegisters _ qty _ => 2 * qty.toNat ≤ 255
  | _ => true

/-- One shift of CRC-16/MODBUS (R99). -/
def crcShift (crc : Word) : Word :=
  if crc.getLsbD 0 then (crc >>> 1) ^^^ 0xA001#16 else crc >>> 1

/-- One byte of CRC-16/MODBUS: XOR into the low byte, then eight shifts (R99). -/
def crcByte (crc : Word) (b : Byte) : Word :=
  (List.range 8).foldl (fun c _ => crcShift c) (crc ^^^ b.zeroExtend 16)

/-- CRC-16/MODBUS (R99). -/
def crc16 (bytes : List Byte) : Word := bytes.foldl crcByte 0xFFFF#16

/-- The CRC as sent, low byte first (R99). -/
def crcBytes (bytes : List Byte) : List Byte :=
  [(crc16 bytes).extractLsb' 0 8, (crc16 bytes).extractLsb' 8 8]

/-- An RTU ADU: slave, PDU, CRC (R99). -/
def encodeAdu (slave : Byte) (pdu : List Byte) : List Byte :=
  slave :: pdu ++ crcBytes (slave :: pdu)

/-- The codec's reading of an ADU (R81, R99): `none` is `NoFrame`, fewer bytes than a slave, a function
code and a CRC need. Which malformed bytes are `NoFrame` and which `DecodeError` is the codec's choice
(R81; log 14). DESIGN CHOICE (log 14; R87, 93 U3): a function code that is none of the eight is
delivered as `Unsupported` whatever bytes stand between it and the CRC, since the record keeps none of
them (R82) and the spec gives such a request no format they could fail. -/
def decodeAdu (bytes : List Byte) : Except DecodeReject (Option (Byte × Instr)) :=
  match bytes with
  | [] => .ok none
  | slave :: _ =>
    if bytes.length < 4 then .ok none
    else if bytes.drop (bytes.length - 2) = crcBytes (bytes.take (bytes.length - 2)) then
      match decode ((bytes.take (bytes.length - 2)).drop 1) with
      | .error r => .error r
      | .ok (.unsupported fc, _) => .ok (some (slave, .unsupported fc))
      | .ok (i, []) => .ok (some (slave, i))
      | .ok (_, _ :: _) => .error .trailing
    else .error .crc

/-- The bytes of a table word of `nbytes` bytes: the table numbers bit 0 as the least significant bit
of the whole header, `fc` in the most significant byte, which is sent first (R97; log 13). -/
def tableBytes (nbytes w : Nat) : List Byte :=
  (List.range nbytes).map fun k => BitVec.ofNat 8 (w >>> (8 * (nbytes - 1 - k)))

/-- The request a table word stands for: its bytes, then zero bytes for the operand bytes the table
gives no bits (at most four of a header and a byte count), through the codec's decoder (log 13). -/
def decodeTableWord (nbits w : Nat) : Option Instr :=
  match decode (tableBytes (nbits / 8) w ++ List.replicate 6 0#8) with
  | .ok (i, _) => some i
  | .error _ => none

end Sys2Proof
end

