-- ==== Sys2Proof/Machine/State.lean ====
section
/-! DEFINITION. The block's state as plain data (10_state.md rules R20 to R37), the records it exchanges
with the host (30_encoding.md rules R80 to R95), and its reset (R37, R146). -/

namespace Sys2Proof.Machine

/-- No fault exists: "No error in this core terminates the process" (R171, R257, R291). -/
inductive Fault where
  deriving DecidableEq, Repr

/-- Why an instruction has no meaning here. -/
inductive Refusal where
  /-- Raised by an arm of `exec` whose instruction has no meaning yet; safe. No arm does so now. -/
  | notModelled (mnemonic : String)
  deriving DecidableEq, Repr

/-- The four spaces of the register map (R12, R21). -/
inductive Space where
  | coils | discrete | holding | input
  deriving DecidableEq, Repr

/-- The register map, the block's memory: one sequence a space, element `a` at address `a` (R21, R23,
20_memory.md). DESIGN CHOICE, safe (log 11): the spec gives the map elements and no bytes, so it is
four lists of elements and no list of address and byte pairs. -/
structure RegMap where
  coils : List Bool
  discrete : List Bool
  holding : List Word
  input : List Word
  deriving DecidableEq, Repr

/-- A complete register map value, published and installed whole (R31). -/
abbrev Snapshot := RegMap

/-- The operating phase (R28). -/
inductive Phase where
  | awaitInit | serving
  deriving DecidableEq, Repr

/-- The per-frame sequencer (R32). -/
inductive Seq where
  | idle | poll | decode | filter | dispatch | encode
  deriving DecidableEq, Repr

/-- The two exception kinds the block raises (R91, R250, R253). -/
inductive ExcKind where
  | illegalFunction | illegalDataAddress
  deriving DecidableEq, Repr

/-- A reply record, handed to the encoder (R90). -/
inductive Reply where
  | bitsResp (fc : Byte) (bits : List Bool) (data : List Byte)
  | wordsResp (fc : Byte) (words : List Word)
  | echoCoilResp (addr : Word) (value : Bool)
  | echoRegResp (addr value : Word)
  | multiResp (fc : Byte) (addr qty : Word)
  | excResp (fc : Byte) (kind : ExcKind)
  deriving DecidableEq, Repr

/-- The local errors a frame's result can carry (R94, R251). -/
inductive DispatchError where
  | frameDecodeFailed (e : CodecError)
  | responseEncodeFailed (e : CodecError)
  deriving DecidableEq, Repr

/-- A frame's result (R13, R94): `Ok(produced, n)` or `Err(e)`. -/
inductive FrameResult where
  | ok (produced : Bool) (n : Nat)
  | err (e : DispatchError)
  deriving DecidableEq, Repr

/-- An observer event (R95). -/
inductive Event where
  | decodeFailed (e : CodecError)
  | exception (fc : Byte) (kind : ExcKind)
  | writeApplied (sp : Space) (addr qty : Word)
  deriving DecidableEq, Repr

/-- A transfer on one of the block's outgoing ports `enc_req`, `event` and `result` (R80). -/
inductive Output where
  | encReq (slave : Byte) (reply : Reply) (cap : Nat)
  | event (ev : Event)
  | result (r : FrameResult)
  deriving DecidableEq, Repr

/-- What the codec makes of a frame's bytes, delivered on the port `frame` (R81). -/
inductive DecodeOutcome where
  | noFrame
  | decodeError (e : CodecError)
  | decoded (target : Byte) (req : Instr)
  deriving DecidableEq, Repr

/-- One transfer on the port `frame`: a decode outcome and `OUT_CAP` (R8, R80). -/
structure Frame where
  outcome : DecodeOutcome
  cap : Nat
  deriving DecidableEq, Repr

/-- Who moves next: the producer, the block, or a caller that asks the block to run `init` (R60, R145).
The order of moves is the total order of R62. DESIGN CHOICE, safe (log 2): it is data, and every
statement about every state holds for every order. -/
inductive Turn where
  | block | producer | initCall
  deriving DecidableEq, Repr

/-- The state. The first part is the spec's, the second holds parameters of the spec that are no
register, the third is the model's own: the world outside the block and the free values' counter. -/
structure State where
  /-- `SLAVE_ID` (R27) -/
  slaveId : Byte
  /-- `C` (R29) -/
  lenC : Word
  /-- `D` (R29) -/
  lenD : Word
  /-- `H` (R29) -/
  lenH : Word
  /-- `I` (R29) -/
  lenI : Word
  /-- the register map (R21) -/
  map : RegMap
  /-- the operating phase (R28) -/
  phase : Phase
  /-- the Data Synchronizer slot (R30) -/
  slot : Option Snapshot
  /-- the per-frame sequencer (R32) -/
  seq : Seq
  /-- transient: the decoded request (R33) -/
  req : Option Instr
  /-- transient: the frame's target slave (R33) -/
  target : Option Byte
  /-- transient: the reply (R33) -/
  reply : Option Reply
  /-- transient: the frame's result (R33) -/
  result : Option FrameResult
  /-- whether an observer is attached to the port `event` (R95, 93 U10; log 8) -/
  observer : Bool
  /-- which encoder is attached (R170; log 5) -/
  codec : CodecKind
  /-- who moves next, in order; the block where the list is empty (R62; log 2) -/
  turns : List Turn
  /-- snapshots the producer will publish, oldest first (R140; log 2) -/
  publishes : List Snapshot
  /-- frames presented and not yet taken, oldest first (R80, R161; log 2) -/
  frames : List Frame
  /-- answers the external encoder will give, oldest first (R170; log 5) -/
  encRsp : List EncoderAnswer
  /-- encode requests made so far, which the free values are applied to (R170; log 6) -/
  draws : Nat
  /-- every transfer on the outgoing ports so far, oldest first (R80; log 9) -/
  outputs : List Output
  deriving DecidableEq, Repr

/-- The map of the given lengths with every coil and discrete input false and every register zero
(R37, R146): what an element reads as that nothing has written. -/
def RegMap.zero (c d h i : Word) : RegMap where
  coils := List.replicate c.toNat false
  discrete := List.replicate d.toNat false
  holding := List.replicate h.toNat 0#16
  input := List.replicate i.toNat 0#16

/-- `new(slave_id)` with the lengths (R146). Construction does not touch the slot, so the slot is an
operand here (R146; 92 D17). -/
def State.construct (slaveId : Byte) (c d h i : Word) (slot : Option Snapshot) : State where
  slaveId := slaveId
  lenC := c
  lenD := d
  lenH := h
  lenI := i
  map := RegMap.zero c d h i
  phase := .awaitInit
  slot := slot
  seq := .idle
  req := none
  target := none
  reply := none
  result := none
  observer := true
  codec := .abstract
  turns := []
  publishes := []
  frames := []
  encRsp := []
  draws := 0
  outputs := []

/-- The block right after system reset (R37, R280): constructed with the parameters of Config, the slot
empty. DESIGN CHOICE, unsafe (log 7): the parameters' values. -/
def State.reset : State :=
  State.construct Config.slaveId Config.lenC Config.lenD Config.lenH Config.lenI none

end Sys2Proof.Machine
end

