-- ==== Sys2Proof/Machine/Ops.lean ====
section
/-! DEFINITION. The named operations every rule uses: MemRead and MemWrite (00_scope.md rule R12), the
registers' writes, the outgoing ports, raising a protocol exception and the return to IDLE. -/

namespace Sys2Proof.Machine

/-- `MemRead(sp, a, n)` on one space's elements: `[map.sp[a + k] for k in 0..n-1]` (R12). An address
with no element gives none; the validator keeps every access off such addresses (R121; log 11). -/
def memRead {α : Type} (xs : List α) (a n : Nat) : List α :=
  (List.range n).filterMap fun k => xs[a + k]?

/-- `MemWrite(sp, a, n, vs)` on one space's elements: `map.sp[a + k] <- vs[k]` for every `k` (R12). An
address with no element is not written (log 11). -/
def memWrite {α : Type} (xs : List α) (a : Nat) : List α → List α
  | [] => xs
  | v :: vs => memWrite (xs.set a v) (a + 1) vs

/-- `map <- m` (R143). -/
def State.setMap (m : RegMap) (s : State) : State := { s with map := m }

/-- `slot <- v` (R140, R142). -/
def State.setSlot (v : Option Snapshot) (s : State) : State := { s with slot := v }

/-- `phase <- p` (R145). -/
def State.setPhase (p : Phase) (s : State) : State := { s with phase := p }

/-- `seq <- q` (R14, R32). -/
def State.setSeq (q : Seq) (s : State) : State := { s with seq := q }

/-- `target <- t8; req <- r` (R163). -/
def State.setRequest (t8 : Byte) (r : Instr) (s : State) : State :=
  { s with target := some t8, req := some r }

/-- `reply <- r` (R165). -/
def State.setReply (r : Reply) (s : State) : State := { s with reply := some r }

/-- `result <- r` (R160). -/
def State.setResult (r : FrameResult) (s : State) : State := { s with result := some r }

/-- A transfer on an outgoing port (R80). -/
def State.send (o : Output) (s : State) : State := { s with outputs := s.outputs ++ [o] }

/-- The transient registers hold no value outside a frame transaction (R33; log 10). -/
def State.clearTransients (s : State) : State :=
  { s with req := none, target := none, reply := none, result := none }

/-- The transfers an observer event makes: one where an observer is attached, else none (R95, 93 U10;
log 8). -/
def observed (observer : Bool) (ev : Event) : List Output := if observer then [.event ev] else []

/-- `event ev` (R95). -/
def emit (ev : Event) (s : State) : State :=
  { s with outputs := s.outputs ++ observed s.observer ev }

/-- A rule of DISPATCH returns the success reply `r` (R13, R165). -/
def answer (r : Reply) (s : State) : State := s.setReply r

/-- Taking a protocol exception (R13, R166, R256): the reply is `ExcResp(fc, kind)`, the event
`EvException(fc, kind)` accompanies it, nothing is saved and no element changes; control passes to
ENCODE like a success reply. There is no return from exception (R257): every transaction ends in
`finish`. -/
def raiseException (fc : Byte) (kind : ExcKind) (s : State) : State :=
  emit (.exception fc kind) (s.setReply (.excResp fc kind))

/-- The end of every frame transaction (R160, R171): the result is written and handed to the caller,
the transient registers give up their values (R33; log 10), and `seq` returns to IDLE. -/
def finish (r : FrameResult) (s : State) : State :=
  (((s.setResult r).send (.result r)).setSeq .idle).clearTransients

/-- A bit-read rule's two cases (R190, R191). -/
def answerBits (fc : Byte) (r : Except ExcKind (List Bool)) (s : State) :
    Host.Outcome State Fault Refusal :=
  match r with
  | .error kind => .next (raiseException fc kind s)
  | .ok bits => .next (answer (.bitsResp fc bits (packBits bits)) s)

/-- A register-read rule's two cases (R192, R193). -/
def answerWords (fc : Byte) (r : Except ExcKind (List Word)) (s : State) :
    Host.Outcome State Fault Refusal :=
  match r with
  | .error kind => .next (raiseException fc kind s)
  | .ok words => .next (answer (.wordsResp fc words) s)

/-- A write rule's two cases (R210 to R213): on success the accessor's map is in place, the event is
`EvWriteApplied(sp, addr, qty)` and the reply is `ok`. -/
def answerWrite (fc : Byte) (r : Except ExcKind RegMap) (sp : Space) (addr qty : Word) (ok : Reply)
    (s : State) : Host.Outcome State Fault Refusal :=
  match r with
  | .error kind => .next (raiseException fc kind s)
  | .ok m => .next (answer ok (emit (.writeApplied sp addr qty) (s.setMap m)))

end Sys2Proof.Machine
end

