-- ==== Sys2Proof/Machine/Codec.lean ====
section
/-! DEFINITION. The encoder's side of the codec: reply PDUs and their lengths (30_encoding.md rules R91,
R98, R99), and the encoder's answer (42_dispatcher.md rule R170). -/

namespace Sys2Proof.Machine

/-- The code byte of an exception kind (R91). PRESUMED by the spec itself (93 GK2). -/
def ExcKind.code : ExcKind → Byte
  | .illegalFunction => 0x01#8
  | .illegalDataAddress => 0x02#8

/-- A reply's function code: its field, or the echo variant's own (R90). -/
def Reply.functionCode : Reply → Byte
  | .bitsResp fc _ _ => fc
  | .wordsResp fc _ => fc
  | .echoCoilResp _ _ => 0x05#8
  | .echoRegResp _ _ => 0x06#8
  | .multiResp fc _ _ => fc
  | .excResp fc _ => fc

/-- A response PDU (R98). A byte count above 255 does not fit its one byte and is cut to its low eight
bits; `Reply.encodable` tells those replies apart (log 19). -/
def encodeReply : Reply → List Byte
  | .bitsResp fc _ data => fc :: BitVec.ofNat 8 data.length :: data
  | .wordsResp fc words => fc :: BitVec.ofNat 8 (2 * words.length) :: wordsBytes words
  | .echoCoilResp addr v => 0x05#8 :: (wordBytes addr ++ wordBytes (coilWord v))
  | .echoRegResp addr v => 0x06#8 :: (wordBytes addr ++ wordBytes v)
  | .multiResp fc addr qty => fc :: (wordBytes addr ++ wordBytes qty)
  | .excResp fc kind => [fc ||| 0x80#8, kind.code]

/-- A reply whose byte count, where it has one, fits its one byte (R98, 93 U5). -/
def Reply.encodable : Reply → Bool
  | .bitsResp _ _ data => data.length ≤ 255
  | .wordsResp _ words => 2 * words.length ≤ 255
  | _ => true

/-- The PDU length of a reply (R98, third column). -/
def Reply.pduLength : Reply → Nat
  | .bitsResp _ _ data => 2 + data.length
  | .wordsResp _ words => 2 + 2 * words.length
  | .echoCoilResp _ _ => 5
  | .echoRegResp _ _ => 5
  | .multiResp _ _ _ => 5
  | .excResp _ _ => 2

/-- The ADU length of a reply: slave, PDU and CRC (R99). -/
def Reply.aduLength (r : Reply) : Nat := 1 + r.pduLength + 2

/-- The master's reading of a register-read response PDU, back to its words (R98, R194). -/
def decodeWordsResp : List Byte → Option (Byte × List Word)
  | fc :: n :: data => if n.toNat = data.length then some (fc, bytesWords data) else none
  | _ => none

/-- An answer the encoder may give for a capacity: `Ok(n)` with `1 ≤ n ≤ cap`, or `EncodeError(e)`
(R170, R290). -/
def admissible (cap : Nat) : EncoderAnswer → Bool
  | .ok n => 1 ≤ n && n ≤ cap
  | .encodeError _ => true

/-- The answer as a draw: any admissible one, and no other (R170; log 6). `k` numbers the request. -/
def drawnAnswer (cap k : Nat) : EncoderAnswer :=
  if admissible cap (Config.encoderDraw k) then Config.encoderDraw k
  else .encodeError (Config.encoderError k)

/-- The abstract encoder's answer (R170): the next scripted one where it is admissible, else a draw
(log 5). -/
def abstractAnswer (script : List EncoderAnswer) (cap k : Nat) : EncoderAnswer :=
  match script with
  | [] => drawnAnswer cap k
  | a :: _ => if admissible cap a then a else drawnAnswer cap k

/-- The informative codec's answer (R170): `Ok(L)`, `L` the ADU length, where it fits, and
`EncodeError` otherwise. A reply whose byte count does not fit one byte is answered by a draw (93 U5). -/
def informativeAnswer (r : Reply) (cap k : Nat) : EncoderAnswer :=
  if r.encodable then
    if r.aduLength ≤ cap then .ok r.aduLength else .encodeError (Config.encoderError k)
  else drawnAnswer cap k

/-- The answer to the encode request for `r` in state `s` (R168, R170). -/
def encoderAnswer (r : Reply) (cap : Nat) (s : State) : EncoderAnswer :=
  match s.codec with
  | .abstract => abstractAnswer s.encRsp cap s.draws
  | .informative => informativeAnswer r cap s.draws

/-- The script after an answer: the abstract encoder's moves on, the informative codec has none to read
(R170; log 5). -/
def restOfScript (codec : CodecKind) (script : List EncoderAnswer) : List EncoderAnswer :=
  match codec with
  | .abstract => script.tail
  | .informative => script

/-- The answer is taken from the port `enc_rsp` (R80), and the next request draws afresh (log 6). -/
def State.takeAnswer (s : State) : State :=
  { s with encRsp := restOfScript s.codec s.encRsp, draws := s.draws + 1 }

/-- The frame's result for an answer (R169). -/
def resultOf : EncoderAnswer → FrameResult
  | .ok n => .ok true n
  | .encodeError e => .err (.responseEncodeFailed e)

end Sys2Proof.Machine
end

