-- ==== Sys2Proof/Machine/Illegal.lean ====
section
/-! DEFINITION. Every function code that is none of the eight (42_dispatcher.md rule R167). -/

namespace Sys2Proof.Machine

/-- Unsupported (R167): no validator runs and no element is touched. -/
def execUnsupported (fc : Byte) (s : State) : Host.Outcome State Fault Refusal :=
  .next (raiseException fc .illegalFunction s)

end Sys2Proof.Machine
end

