-- ==== Sys2Proof/Machine/Operands.lean ====
section
/-! DEFINITION. Operand assembly (30_encoding.md rule R85) and the register map validator
(40_register_map.md rules R120 to R122). -/

namespace Sys2Proof.Machine

/-- An address as delivered: unsigned, no offset, no scaling, no extension (R23, R85). -/
def elementAddress (addr : Word) : Nat := addr.toNat

/-- A quantity, taken as a natural number for the validator's exact sum (R85). -/
def quantity (qty : Word) : Nat := qty.toNat

/-- The length register of a space (R12, R29). -/
def State.len (s : State) : Space → Word
  | .coils => s.lenC
  | .discrete => s.lenD
  | .holding => s.lenH
  | .input => s.lenI

/-- `Valid(sp, a, n)` for the space whose length is `len` (R120): the exact sum first against the 16-bit
domain, then against the length. -/
def valid (len : Word) (a n : Nat) : Bool :=
  if a + n > 0xFFFF then false else a + n ≤ len.toNat

end Sys2Proof.Machine
end

