-- ==== Sys2Proof/Machine/Flags.lean ====
section
/-! DEFINITION. The status bits (10_state.md rule R34). The block has no arithmetic flags and no
condition codes, so no instruction computes any. -/

namespace Sys2Proof.Machine

/-- `response_produced`, part of a frame's result (R34, R94). -/
def responseProduced : FrameResult → Bool
  | .ok produced _ => produced
  | .err _ => false

/-- `slot_full`: a snapshot is pending (R34). -/
def State.slotFull (s : State) : Bool := s.slot.isSome

/-- `phase = SERVING`: init has completed (R34). -/
def State.serving (s : State) : Bool := s.phase == .serving

/-- The port `frame` is ready only while `phase = SERVING` and `seq = IDLE` (R80, R161). -/
def State.frameReady (s : State) : Bool := s.serving && s.seq == .idle

/-- The port `frame` admits a decode outcome: a request record must be a legal one (R82, R86; 92 D33). -/
def DecodeOutcome.admitted : DecodeOutcome → Bool
  | .noFrame => true
  | .decodeError _ => true
  | .decoded _ req => req.wellFormed

/-- A snapshot the slot admits: its four lengths equal the block's (R24, R141). -/
def State.admits (s : State) (m : Snapshot) : Bool :=
  m.coils.length == s.lenC.toNat && m.discrete.length == s.lenD.toNat &&
    m.holding.length == s.lenH.toNat && m.input.length == s.lenI.toNat

end Sys2Proof.Machine
end

