-- ==== Sys2Proof/Machine/RegisterMap.lean ====
section
/-! DEFINITION. The eight accessors of the register map (40_register_map.md rules R123 to R131). Each
validates before it touches an element (R55); IllegalDataAddress is its only failure (R121). -/

namespace Sys2Proof.Machine

/-- `read_coils(a, n)` (R123). -/
def readCoils (addr qty : Word) (s : State) : Except ExcKind (List Bool) :=
  if valid (s.len .coils) (elementAddress addr) (quantity qty) then
    .ok (memRead s.map.coils (elementAddress addr) (quantity qty))
  else .error .illegalDataAddress

/-- `read_discrete_inputs(a, n)` (R124). -/
def readDiscreteInputs (addr qty : Word) (s : State) : Except ExcKind (List Bool) :=
  if valid (s.len .discrete) (elementAddress addr) (quantity qty) then
    .ok (memRead s.map.discrete (elementAddress addr) (quantity qty))
  else .error .illegalDataAddress

/-- `read_holding_registers(a, n)` (R125). -/
def readHoldingRegisters (addr qty : Word) (s : State) : Except ExcKind (List Word) :=
  if valid (s.len .holding) (elementAddress addr) (quantity qty) then
    .ok (memRead s.map.holding (elementAddress addr) (quantity qty))
  else .error .illegalDataAddress

/-- `read_input_registers(a, n)` (R126). -/
def readInputRegisters (addr qty : Word) (s : State) : Except ExcKind (List Word) :=
  if valid (s.len .input) (elementAddress addr) (quantity qty) then
    .ok (memRead s.map.input (elementAddress addr) (quantity qty))
  else .error .illegalDataAddress

/-- `write_single_coil(a, v)` (R127): the map it leaves. -/
def writeSingleCoil (addr : Word) (value : Bool) (s : State) : Except ExcKind RegMap :=
  if valid (s.len .coils) (elementAddress addr) 1 then
    .ok { s.map with coils := s.map.coils.set (elementAddress addr) value }
  else .error .illegalDataAddress

/-- `write_single_register(a, v)` (R128): the map it leaves. -/
def writeSingleRegister (addr value : Word) (s : State) : Except ExcKind RegMap :=
  if valid (s.len .holding) (elementAddress addr) 1 then
    .ok { s.map with holding := s.map.holding.set (elementAddress addr) value }
  else .error .illegalDataAddress

/-- `write_multiple_coils(a, vs)` (R129), with `n = len(vs)`: the map it leaves. -/
def writeMultipleCoils (addr : Word) (values : List Bool) (s : State) : Except ExcKind RegMap :=
  if valid (s.len .coils) (elementAddress addr) values.length then
    .ok { s.map with coils := memWrite s.map.coils (elementAddress addr) values }
  else .error .illegalDataAddress

/-- `write_multiple_registers(a, vs)` (R130), with `n = len(vs)`: the map it leaves. -/
def writeMultipleRegisters (addr : Word) (values : List Word) (s : State) : Except ExcKind RegMap :=
  if valid (s.len .holding) (elementAddress addr) values.length then
    .ok { s.map with holding := memWrite s.map.holding (elementAddress addr) values }
  else .error .illegalDataAddress

end Sys2Proof.Machine
end

