-- ==== Sys2Proof/Machine/Reads.lean ====
section
/-! DEFINITION. The read requests, function codes 0x01 to 0x04 (43_read_requests.md). -/

namespace Sys2Proof.Machine

/-- ReadCoils (R190). -/
def execReadCoils (addr qty : Word) (s : State) : Host.Outcome State Fault Refusal :=
  answerBits 0x01#8 (readCoils addr qty s) s

/-- ReadDiscreteInputs (R191). -/
def execReadDiscreteInputs (addr qty : Word) (s : State) : Host.Outcome State Fault Refusal :=
  answerBits 0x02#8 (readDiscreteInputs addr qty s) s

/-- ReadHoldingRegisters (R192). -/
def execReadHoldingRegisters (addr qty : Word) (s : State) : Host.Outcome State Fault Refusal :=
  answerWords 0x03#8 (readHoldingRegisters addr qty s) s

/-- ReadInputRegisters (R193). -/
def execReadInputRegisters (addr qty : Word) (s : State) : Host.Outcome State Fault Refusal :=
  answerWords 0x04#8 (readInputRegisters addr qty s) s

end Sys2Proof.Machine
end

