-- ==== Sys2Proof/Machine/Writes.lean ====
section
/-! DEFINITION. The write requests, function codes 0x05, 0x06, 0x0F and 0x10 (44_write_requests.md). -/

namespace Sys2Proof.Machine

/-- WriteSingleCoil (R210). -/
def execWriteSingleCoil (addr : Word) (value : Bool) (s : State) : Host.Outcome State Fault Refusal :=
  answerWrite 0x05#8 (writeSingleCoil addr value s) .coils addr 1#16 (.echoCoilResp addr value) s

/-- WriteSingleRegister (R211). -/
def execWriteSingleRegister (addr value : Word) (s : State) : Host.Outcome State Fault Refusal :=
  answerWrite 0x06#8 (writeSingleRegister addr value s) .holding addr 1#16 (.echoRegResp addr value) s

/-- WriteMultipleCoils (R212). A record with `len(values) ≠ qty` never gets here through a step (R86);
on one, the accessor uses the values and the reply the quantity, as the pseudocode does (log 16). -/
def execWriteMultipleCoils (addr qty : Word) (values : List Bool) (s : State) :
    Host.Outcome State Fault Refusal :=
  answerWrite 0x0F#8 (writeMultipleCoils addr values s) .coils addr qty (.multiResp 0x0F#8 addr qty) s

/-- WriteMultipleRegisters (R213). On a record with `len(values) ≠ qty`: as WriteMultipleCoils. -/
def execWriteMultipleRegisters (addr qty : Word) (values : List Word) (s : State) :
    Host.Outcome State Fault Refusal :=
  answerWrite 0x10#8 (writeMultipleRegisters addr values s) .holding addr qty
    (.multiResp 0x10#8 addr qty) s

end Sys2Proof.Machine
end

