-- ==== Sys2Proof/Machine/Dispatch.lean ====
section
/-! DEFINITION. The dispatch of a request record to its rule (42_dispatcher.md rule R165). -/

namespace Sys2Proof.Machine

/-- `Dispatch(req)` (R165): one rule per variant, and no other arm. -/
def exec (i : Instr) (s : State) : Host.Outcome State Fault Refusal :=
  match i with
  | .readCoils addr qty => Sys2Proof.Machine.execReadCoils addr qty s
  | .readDiscreteInputs addr qty => Sys2Proof.Machine.execReadDiscreteInputs addr qty s
  | .readHoldingRegisters addr qty => Sys2Proof.Machine.execReadHoldingRegisters addr qty s
  | .readInputRegisters addr qty => Sys2Proof.Machine.execReadInputRegisters addr qty s
  | .writeSingleCoil addr value => Sys2Proof.Machine.execWriteSingleCoil addr value s
  | .writeSingleRegister addr value => Sys2Proof.Machine.execWriteSingleRegister addr value s
  | .writeMultipleCoils addr qty values => Sys2Proof.Machine.execWriteMultipleCoils addr qty values s
  | .writeMultipleRegisters addr qty values => Sys2Proof.Machine.execWriteMultipleRegisters addr qty values s
  | .unsupported fc => Sys2Proof.Machine.execUnsupported fc s

end Sys2Proof.Machine
end

