-- ==== Sys2Proof/Machine/Synchronizer.lean ====
section
/-! DEFINITION. The Data Synchronizer slot's operations and the block's initialisation
(41_synchronizer.md rules R140 to R145). -/

namespace Sys2Proof.Machine

/-- `publish(m)` (R140): any pending snapshot is discarded. -/
def publish (m : Snapshot) (s : State) : State := s.setSlot (some m)

/-- `Install(m)` (R143): all four spaces at once. -/
def install (m : Snapshot) (s : State) : State := s.setMap m

/-- The POLL step's `try_receive` and install (R142): never blocks. -/
def poll (s : State) : State :=
  match s.slot with
  | none => s
  | some m => install m (s.setSlot none)

/-- `init()` (R144, R145). With an empty slot `receive` waits, and in SERVING a second `init` is
refused: in both cases there is no step and nothing changes (log 3). -/
def initBlock (s : State) : State :=
  match s.phase, s.slot with
  | .awaitInit, some m => (install m (s.setSlot none)).setPhase .serving
  | .awaitInit, none => s
  | .serving, _ => s

/-- The producer's move (R140, R141): its next snapshot is published where the slot admits it; a
snapshot of another shape has no step and the producer stays stuck at it (log 3). -/
def producerMove (s : State) : State :=
  match s.publishes with
  | [] => s
  | m :: rest => if s.admits m then publish m { s with publishes := rest } else s

end Sys2Proof.Machine
end

