-- ==== Sys2Proof/Machine/Transaction.lean ====
section
/-! DEFINITION. The frame transaction (42_dispatcher.md rules R160 to R175), who moves when
(20_memory.md rule R62), and how a table word is presented as a frame. -/

namespace Sys2Proof.Machine

/-- ENCODE (R168, R169): `(SLAVE_ID, reply)` and the capacity go to the encoder, and its answer ends
the transaction. Without a reply the step is unreachable, since every rule of DISPATCH writes one
(R165); the frame then ends with no response (log 12). -/
def encodeStep (cap : Nat) (s : State) : State :=
  match s.reply with
  | none => finish (.ok false 0) s
  | some r =>
    finish (resultOf (encoderAnswer r cap s)) ((s.send (.encReq s.slaveId r cap)).takeAnswer)

/-- DISPATCH and ENCODE (R165, R168): a rule that stopped would stop the transaction; none does. -/
def dispatchStep (i : Instr) (cap : Nat) (s : State) : Host.Outcome State Fault Refusal :=
  match exec i (s.setSeq .dispatch) with
  | .next t => .next (encodeStep cap (t.setSeq .encode))
  | .fault r => .fault r
  | .refused r => .refused r

/-- FILTER (R164): a frame for another slave ends silently; no target is special. -/
def filterStep (t8 : Byte) (i : Instr) (cap : Nat) (s : State) : Host.Outcome State Fault Refusal :=
  if t8 = s.slaveId then dispatchStep i cap s
  else .next (finish (.ok false 0) s)

/-- DECODE and what follows it (R163). -/
def decodeStep (f : Frame) (s : State) : Host.Outcome State Fault Refusal :=
  match f.outcome with
  | .noFrame => .next (finish (.ok false 0) s)
  | .decodeError e => .next (finish (.err (.frameDecodeFailed e)) (emit (.decodeFailed e) s))
  | .decoded t8 i => filterStep t8 i f.cap ((s.setRequest t8 i).setSeq .filter)

/-- `process_frame(outcome, cap)` (R160): POLL, then DECODE and the rest. -/
def processFrame (f : Frame) (s : State) : Host.Outcome State Fault Refusal :=
  decodeStep f ((poll (s.setSeq .poll)).setSeq .decode)

/-- The block's move. Before init it can only run `init` (R145, R280); in SERVING it takes the oldest
frame that waits, where the port is ready and admits it (R161, R86). Otherwise it has no step and
nothing changes (R263, R284; log 3). -/
def blockMove (s : State) : Host.Outcome State Fault Refusal :=
  match s.phase, s.frames with
  | .awaitInit, _ => .next (initBlock s)
  | .serving, [] => .next s
  | .serving, f :: rest =>
    if s.frameReady && f.outcome.admitted then processFrame f { s with frames := rest } else .next s

/-- One move of the agent whose turn it is (R62; log 1, log 2). -/
def takeTurn (s : State) : Host.Outcome State Fault Refusal :=
  match s.turns with
  | [] => blockMove s
  | .block :: rest => blockMove { s with turns := rest }
  | .producer :: rest => .next (producerMove { s with turns := rest })
  | .initCall :: rest => .next (initBlock { s with turns := rest })

/-- The decode outcome of a request the codec delivers, addressed to this block (R81). -/
def outcomeOfTableWord (slave : Byte) (nbits w : Nat) : DecodeOutcome :=
  match decodeTableWord nbits w with
  | some i => .decoded slave i
  | none => .decodeError DecodeReject.truncated.error

/-- The decode outcome of an ADU's bytes under the informative codec (R81, R99; log 14). -/
def outcomeOfAdu (bytes : List Byte) : DecodeOutcome :=
  match decodeAdu bytes with
  | .error r => .decodeError r.error
  | .ok none => .noFrame
  | .ok (some (t8, i)) => .decoded t8 i

/-- A frame presented on the port as the next one, in a block that serves and whose move is next: what
it takes for the very next step to take this frame (log 15). -/
def presentNow (f : Frame) (s : State) : State :=
  { s with phase := .serving, seq := .idle, turns := .block :: s.turns, frames := f :: s.frames }

end Sys2Proof.Machine
end

