-- ==== Sys2Proof/Machine/Step.lean ====
section
/-! DEFINITION. One step of the machine (00_scope.md rule R4: one step consumes one decode outcome and
produces at most one reply), and where a step takes its next request from. -/

namespace Sys2Proof.Machine

/-- One move of the agent whose turn it is. -/
def step (s : State) : Host.Outcome State Fault Refusal := takeTurn s

/-- `s` with the request of a table word presented on the port `frame`, addressed to the block, so that
the next step takes it (log 13, log 15). -/
def State.withFetchWord (s : State) (nbits w : Nat) : State :=
  presentNow ⟨outcomeOfTableWord s.slaveId nbits w, Config.defaultCap⟩ s

end Sys2Proof.Machine
end

