-- ==== Sys2Proof/Safety.lean ====
section
/-! DEFINITION. What counts as a sound state and a safe run: the invariants that claims use
(10_state.md rules R24, R32, R33, R37). -/

namespace Sys2Proof.Machine

/-- The map has the block's configured shape (R24): the form every memory operation keeps. -/
def State.memoryWf (s : State) : Bool := s.admits s.map

/-- A pending snapshot has the block's configured shape (R24, R141). -/
def State.slotWf (s : State) : Bool := s.slot.all s.admits

/-- Between frame transactions `seq = IDLE` (R32) and the transient registers hold no value (R33). -/
def State.between (s : State) : Bool :=
  s.seq == .idle && s.req.isNone && s.target.isNone && s.reply.isNone && s.result.isNone

/-- The invariant of the machine between steps. -/
def State.Inv (s : State) : Prop :=
  s.memoryWf = true ∧ s.slotWf = true ∧ s.between = true

/-- Before init the map is the one construction made, and nothing has been sent on any port (R37, R161,
R284). -/
def State.BootInv (s : State) : Prop :=
  s.phase = .awaitInit → s.map = RegMap.zero s.lenC s.lenD s.lenH s.lenI ∧ s.outputs = []

/-- An outcome that goes on (R171, R291). -/
def goesOn : Host.Outcome State Fault Refusal → Bool
  | .next _ => true
  | .fault _ => false
  | .refused _ => false

/-- The block moves next (R62; log 2). -/
def State.blockNext (s : State) : Bool :=
  match s.turns with
  | [] => true
  | .block :: _ => true
  | .producer :: _ => false
  | .initCall :: _ => false

/-- The space and the range a request names, which its validator check is about (R122); `Unsupported`
names none (R167). -/
def requestRange : Instr → Option (Space × Nat × Nat)
  | .readCoils addr qty => some (.coils, addr.toNat, qty.toNat)
  | .readDiscreteInputs addr qty => some (.discrete, addr.toNat, qty.toNat)
  | .readHoldingRegisters addr qty => some (.holding, addr.toNat, qty.toNat)
  | .readInputRegisters addr qty => some (.input, addr.toNat, qty.toNat)
  | .writeSingleCoil addr _ => some (.coils, addr.toNat, 1)
  | .writeSingleRegister addr _ => some (.holding, addr.toNat, 1)
  | .writeMultipleCoils addr qty _ => some (.coils, addr.toNat, qty.toNat)
  | .writeMultipleRegisters addr qty _ => some (.holding, addr.toNat, qty.toNat)
  | .unsupported _ => none

/-- A reply that is a protocol exception (R90). -/
def isException : Option Reply → Bool
  | some (.excResp _ _) => true
  | _ => false

/-- The transfers on the port `enc_req` (R80). -/
def encRequests (outs : List Output) : List Output :=
  outs.filter fun o => match o with
    | .encReq _ _ _ => true
    | .event _ => false
    | .result _ => false

/-- The transfers on the port `result` (R80). -/
def frameResults (outs : List Output) : List Output :=
  outs.filter fun o => match o with
    | .encReq _ _ _ => false
    | .event _ => false
    | .result _ => true

/-- Every transfer but the observer's (R95). -/
def unobserved (outs : List Output) : List Output :=
  outs.filter fun o => match o with
    | .encReq _ _ _ => true
    | .event _ => false
    | .result _ => true

/-- A decode outcome that reaches no request of this block (R163, R164, R174): no frame, a malformed
one, or one for another slave. -/
def silentFor (slave : Byte) : DecodeOutcome → Bool
  | .noFrame => true
  | .decodeError _ => true
  | .decoded t8 _ => t8 != slave

end Sys2Proof.Machine
end

