-- ==== Sys2Proof/Certificates/Slice0/Obligations.lean ====
section
/-! DEFINITION. The statements for the provers. Each docstring names the rule of spec/ it formalises. -/

open Sys2Proof Sys2Proof.Machine

/-! ## The requests: results, frames and completion -/

/-- R190: ReadCoils answers the bits read, packed, or IllegalDataAddress, and writes nothing. -/
def Obligations.ReadCoilsAnswersRangeOrRaises : Prop :=
  ∀ (s : State) (addr qty : Word), s.memoryWf = true →
    encode (.readCoils addr qty) = 0x01#8 :: (wordBytes addr ++ wordBytes qty) ∧
    (addr.toNat + qty.toNat ≤ s.lenC.toNat → ∃ bits : List Bool,
      bits.length = qty.toNat ∧
      (∀ k, k < qty.toNat → bits[k]? = s.map.coils[addr.toNat + k]?) ∧
      exec (.readCoils addr qty) s = .next { s with reply := some (.bitsResp 0x01#8 bits (packBits bits)) }) ∧
    (s.lenC.toNat < addr.toNat + qty.toNat →
      exec (.readCoils addr qty) s = .next
        { s with reply := some (.excResp 0x01#8 .illegalDataAddress)
                 outputs := s.outputs ++ observed s.observer (.exception 0x01#8 .illegalDataAddress) })

/-- R191: ReadDiscreteInputs, as ReadCoils over DISCRETE. -/
def Obligations.ReadDiscreteInputsAnswersRangeOrRaises : Prop :=
  ∀ (s : State) (addr qty : Word), s.memoryWf = true →
    encode (.readDiscreteInputs addr qty) = 0x02#8 :: (wordBytes addr ++ wordBytes qty) ∧
    (addr.toNat + qty.toNat ≤ s.lenD.toNat → ∃ bits : List Bool,
      bits.length = qty.toNat ∧
      (∀ k, k < qty.toNat → bits[k]? = s.map.discrete[addr.toNat + k]?) ∧
      exec (.readDiscreteInputs addr qty) s =
        .next { s with reply := some (.bitsResp 0x02#8 bits (packBits bits)) }) ∧
    (s.lenD.toNat < addr.toNat + qty.toNat →
      exec (.readDiscreteInputs addr qty) s = .next
        { s with reply := some (.excResp 0x02#8 .illegalDataAddress)
                 outputs := s.outputs ++ observed s.observer (.exception 0x02#8 .illegalDataAddress) })

/-- R192: ReadHoldingRegisters answers exactly the words of the range, unmodified, or raises. -/
def Obligations.ReadHoldingRegistersAnswersRangeOrRaises : Prop :=
  ∀ (s : State) (addr qty : Word), s.memoryWf = true →
    encode (.readHoldingRegisters addr qty) = 0x03#8 :: (wordBytes addr ++ wordBytes qty) ∧
    (addr.toNat + qty.toNat ≤ s.lenH.toNat → ∃ words : List Word,
      words.length = qty.toNat ∧
      (∀ k, k < qty.toNat → words[k]? = s.map.holding[addr.toNat + k]?) ∧
      exec (.readHoldingRegisters addr qty) s = .next { s with reply := some (.wordsResp 0x03#8 words) }) ∧
    (s.lenH.toNat < addr.toNat + qty.toNat →
      exec (.readHoldingRegisters addr qty) s = .next
        { s with reply := some (.excResp 0x03#8 .illegalDataAddress)
                 outputs := s.outputs ++ observed s.observer (.exception 0x03#8 .illegalDataAddress) })

/-- R193: ReadInputRegisters, as ReadHoldingRegisters over INPUT. -/
def Obligations.ReadInputRegistersAnswersRangeOrRaises : Prop :=
  ∀ (s : State) (addr qty : Word), s.memoryWf = true →
    encode (.readInputRegisters addr qty) = 0x04#8 :: (wordBytes addr ++ wordBytes qty) ∧
    (addr.toNat + qty.toNat ≤ s.lenI.toNat → ∃ words : List Word,
      words.length = qty.toNat ∧
      (∀ k, k < qty.toNat → words[k]? = s.map.input[addr.toNat + k]?) ∧
      exec (.readInputRegisters addr qty) s = .next { s with reply := some (.wordsResp 0x04#8 words) }) ∧
    (s.lenI.toNat < addr.toNat + qty.toNat →
      exec (.readInputRegisters addr qty) s = .next
        { s with reply := some (.excResp 0x04#8 .illegalDataAddress)
                 outputs := s.outputs ++ observed s.observer (.exception 0x04#8 .illegalDataAddress) })

/-- R210: WriteSingleCoil writes its one coil and echoes, or raises and changes no element. -/
def Obligations.WriteSingleCoilWritesOneOrRaises : Prop :=
  ∀ (s : State) (addr : Word) (v : Bool), s.memoryWf = true →
    encode (.writeSingleCoil addr v) =
      0x05#8 :: (wordBytes addr ++ wordBytes (if v then 0xFF00#16 else 0x0000#16)) ∧
    (addr.toNat < s.lenC.toNat → ∃ coils : List Bool,
      (∀ a, coils[a]? = if a = addr.toNat then some v else s.map.coils[a]?) ∧
      exec (.writeSingleCoil addr v) s = .next
        { s with map := { s.map with coils := coils }
                 reply := some (.echoCoilResp addr v)
                 outputs := s.outputs ++ observed s.observer (.writeApplied .coils addr 1#16) }) ∧
    (s.lenC.toNat ≤ addr.toNat →
      exec (.writeSingleCoil addr v) s = .next
        { s with reply := some (.excResp 0x05#8 .illegalDataAddress)
                 outputs := s.outputs ++ observed s.observer (.exception 0x05#8 .illegalDataAddress) })

/-- R211: WriteSingleRegister writes its one register and echoes, or raises and changes no element. -/
def Obligations.WriteSingleRegisterWritesOneOrRaises : Prop :=
  ∀ (s : State) (addr v : Word), s.memoryWf = true →
    encode (.writeSingleRegister addr v) = 0x06#8 :: (wordBytes addr ++ wordBytes v) ∧
    (addr.toNat < s.lenH.toNat → ∃ holding : List Word,
      (∀ a, holding[a]? = if a = addr.toNat then some v else s.map.holding[a]?) ∧
      exec (.writeSingleRegister addr v) s = .next
        { s with map := { s.map with holding := holding }
                 reply := some (.echoRegResp addr v)
                 outputs := s.outputs ++ observed s.observer (.writeApplied .holding addr 1#16) }) ∧
    (s.lenH.toNat ≤ addr.toNat →
      exec (.writeSingleRegister addr v) s = .next
        { s with reply := some (.excResp 0x06#8 .illegalDataAddress)
                 outputs := s.outputs ++ observed s.observer (.exception 0x06#8 .illegalDataAddress) })

/-- R212: WriteMultipleCoils writes its whole range and answers `(addr, qty)`, or raises and changes no
element. The premise is the port's own (R86), and the PDU is stated where its byte count fits its byte. -/
def Obligations.WriteMultipleCoilsWritesAllOrRaises : Prop :=
  ∀ (s : State) (addr qty : Word) (values : List Bool), s.memoryWf = true → values.length = qty.toNat →
    ((qty.toNat + 7) / 8 ≤ 255 → encode (.writeMultipleCoils addr qty values) =
      0x0F#8 :: (wordBytes addr ++ wordBytes qty ++
        BitVec.ofNat 8 ((qty.toNat + 7) / 8) :: packBits values)) ∧
    (addr.toNat + qty.toNat ≤ s.lenC.toNat → ∃ coils : List Bool,
      (∀ a, coils[a]? = if addr.toNat ≤ a ∧ a < addr.toNat + qty.toNat then values[a - addr.toNat]?
        else s.map.coils[a]?) ∧
      exec (.writeMultipleCoils addr qty values) s = .next
        { s with map := { s.map with coils := coils }
                 reply := some (.multiResp 0x0F#8 addr qty)
                 outputs := s.outputs ++ observed s.observer (.writeApplied .coils addr qty) }) ∧
    (s.lenC.toNat < addr.toNat + qty.toNat →
      exec (.writeMultipleCoils addr qty values) s = .next
        { s with reply := some (.excResp 0x0F#8 .illegalDataAddress)
                 outputs := s.outputs ++ observed s.observer (.exception 0x0F#8 .illegalDataAddress) })

/-- R213: WriteMultipleRegisters, as WriteMultipleCoils over HOLDING. -/
def Obligations.WriteMultipleRegistersWritesAllOrRaises : Prop :=
  ∀ (s : State) (addr qty : Word) (values : List Word), s.memoryWf = true → values.length = qty.toNat →
    (2 * qty.toNat ≤ 255 → encode (.writeMultipleRegisters addr qty values) =
      0x10#8 :: (wordBytes addr ++ wordBytes qty ++
        BitVec.ofNat 8 (2 * qty.toNat) :: wordsBytes values)) ∧
    (addr.toNat + qty.toNat ≤ s.lenH.toNat → ∃ holding : List Word,
      (∀ a, holding[a]? = if addr.toNat ≤ a ∧ a < addr.toNat + qty.toNat then values[a - addr.toNat]?
        else s.map.holding[a]?) ∧
      exec (.writeMultipleRegisters addr qty values) s = .next
        { s with map := { s.map with holding := holding }
                 reply := some (.multiResp 0x10#8 addr qty)
                 outputs := s.outputs ++ observed s.observer (.writeApplied .holding addr qty) }) ∧
    (s.lenH.toNat < addr.toNat + qty.toNat →
      exec (.writeMultipleRegisters addr qty values) s = .next
        { s with reply := some (.excResp 0x10#8 .illegalDataAddress)
                 outputs := s.outputs ++ observed s.observer (.exception 0x10#8 .illegalDataAddress) })

/-- R167: every other function code is answered with IllegalFunction; no element is read or written, and
on the informative wire (R98) the reply's PDU is the code with its top bit set and 01. -/
def Obligations.UnsupportedCodeRaisesIllegalFunction : Prop :=
  ∀ (s : State) (fc : Byte),
    exec (.unsupported fc) s = .next
      { s with reply := some (.excResp fc .illegalFunction)
               outputs := s.outputs ++ observed s.observer (.exception fc .illegalFunction) } ∧
    encodeReply (.excResp fc .illegalFunction) = [fc ||| 0x80#8, 0x01#8]

/-- R250: the two exception kinds, their codes and exactly when a request raises one. -/
def Obligations.ExceptionExactlyByCodeOrRange : Prop :=
  ExcKind.illegalFunction.code = 0x01#8 ∧ ExcKind.illegalDataAddress.code = 0x02#8 ∧
  ∀ (i : Instr) (s : State), i.wellFormed = true → ∃ t, exec i s = .next t ∧
    (requestRange i = none → t.reply = some (.excResp i.functionCode .illegalFunction)) ∧
    ∀ sp a n, requestRange i = some (sp, a, n) →
      ((s.len sp).toNat < a + n → t.reply = some (.excResp i.functionCode .illegalDataAddress)) ∧
      (a + n ≤ (s.len sp).toNat → isException t.reply = false)

/-- R256: a request that raises an exception saves nothing and changes nothing but the reply and the
event that goes with it. -/
def Obligations.ExceptionChangesNoElement : Prop :=
  ∀ (i : Instr) (s : State), ∃ t, exec i s = .next t ∧
    ∀ fc kind, t.reply = some (.excResp fc kind) →
      t = { s with reply := some (.excResp fc kind)
                   outputs := s.outputs ++ observed s.observer (.exception fc kind) }

/-- R120, R122: the validator is the exact bound, and for one element it is `a < len`. -/
def Obligations.ValidatorIsExactBound : Prop :=
  ∀ (len a n : Word),
    (0xFFFF < a.toNat + n.toNat → valid len a.toNat n.toNat = false) ∧
    (valid len a.toNat n.toNat = true ↔ a.toNat + n.toNat ≤ len.toNat) ∧
    (valid len a.toNat 1 = true ↔ a.toNat < len.toNat)

/-- R92: the packed bytes' number, every bit's place, and zero pad bits. -/
def Obligations.PackBitsPlacesEveryBit : Prop :=
  ∀ bits : List Bool,
    (bits.length ≤ 8 * (packBits bits).length ∧
      ∀ q, bits.length ≤ 8 * q → (packBits bits).length ≤ q) ∧
    ∀ j b, b < 8 → ∀ byte, (packBits bits)[j]? = some byte →
      byte.getLsbD b = bits.getD (8 * j + b) false

/-! ## The Data Synchronizer and initialisation -/

/-- R140: a publish of an admitted snapshot replaces whatever is pending, and does nothing else. -/
def Obligations.PublishReplacesPendingSnapshot : Prop :=
  ∀ (s : State) (m : Snapshot) (rest : List Snapshot) (ts : List Turn),
    s.turns = .producer :: ts → s.publishes = m :: rest → s.admits m = true →
      step s = .next { s with turns := ts, publishes := rest, slot := some m }

/-- R141: a snapshot of another shape is never published. That the producer's turn passes is the
model's rendering of "has no step" (log 3). -/
def Obligations.MisshapedPublishHasNoStep : Prop :=
  ∀ (s : State) (m : Snapshot) (rest : List Snapshot) (ts : List Turn),
    s.turns = .producer :: ts → s.publishes = m :: rest → s.admits m = false →
      step s = .next { s with turns := ts }

/-- R145, R144: init takes the pending snapshot and enters SERVING; with none pending it waits. The
passing turn is the model's rendering of waiting (log 3). -/
def Obligations.InitTakesFirstSnapshotOrWaits : Prop :=
  ∀ (s : State), s.phase = .awaitInit → (s.turns = [] ∨ ∃ ts, s.turns = .block :: ts ∨ s.turns = .initCall :: ts) →
    (∀ m, s.slot = some m →
      step s = .next { s with turns := s.turns.tail, map := m, slot := none, phase := .serving }) ∧
    (s.slot = none → step s = .next { s with turns := s.turns.tail })

/-- R145: an init requested while SERVING has no step; its turn passes (log 3). -/
def Obligations.SecondInitHasNoStep : Prop :=
  ∀ (s : State) (ts : List Turn), s.phase = .serving → s.turns = .initCall :: ts →
    step s = .next { s with turns := ts }

/-- R161, R284: before init no frame is taken, nothing is answered, and no output is made. -/
def Obligations.NothingAnsweredBeforeInit : Prop :=
  ∀ (s : State), s.phase = .awaitInit → ∃ t, step s = .next t ∧
    t.frames = s.frames ∧ t.outputs = s.outputs ∧ t.encRsp = s.encRsp ∧ t.draws = s.draws ∧
    (t.phase = .serving → ∃ m, s.slot = some m ∧ t.map = m ∧ t.slot = none) ∧
    (t.phase = .awaitInit → t.map = s.map)

/-- R86: a record whose value list and quantity differ is not admitted; the block takes no step on it
(its turn passes, log 3), and the record stays unanswered. -/
def Obligations.MismatchedRecordIsNotTaken : Prop :=
  ∀ (s : State) (t8 : Byte) (i : Instr) (cap : Nat) (rest : List Frame),
    s.phase = .serving → s.blockNext = true → s.frames = ⟨.decoded t8 i, cap⟩ :: rest →
    ((∃ addr qty vs, i = .writeMultipleCoils addr qty vs ∧ vs.length ≠ qty.toNat) ∨
      ∃ addr qty vs, i = .writeMultipleRegisters addr qty vs ∧ vs.length ≠ qty.toNat) →
    step s = .next { s with turns := s.turns.tail }

/-! ## The frame transaction -/

/-- R160, R165, R168: a step that takes a frame whose outcome is a request for this block polls, runs
exec of that request and encodes its reply; and a frame's bytes that decode to a request are that
outcome. -/
def Obligations.StepRunsDecodedRequest : Prop :=
  (∀ (bytes : List Byte) (t8 : Byte) (i : Instr),
    decodeAdu bytes = .ok (some (t8, i)) → outcomeOfAdu bytes = .decoded t8 i) ∧
  ∀ (s : State) (i : Instr) (cap : Nat) (rest : List Frame),
    s.phase = .serving → s.seq = .idle → s.blockNext = true →
    s.frames = ⟨.decoded s.slaveId i, cap⟩ :: rest → i.wellFormed = true →
    ∃ u r,
      exec i { s with turns := s.turns.tail, frames := rest, map := s.slot.getD s.map, slot := none
                      target := some s.slaveId, req := some i, seq := .dispatch } = .next u ∧
      u.reply = some r ∧
      step s = .next
        { u.takeAnswer with
          outputs := u.outputs ++ [.encReq s.slaveId r cap, .result (resultOf (encoderAnswer r cap u))]
          seq := .idle, target := none, req := none, reply := none, result := none }

/-- R163: a step on NoFrame or on a decode error ends with its result, and its only other effect is the
poll's. -/
def Obligations.NoRequestNoReply : Prop :=
  ∀ (s : State) (o : DecodeOutcome) (cap : Nat) (rest : List Frame),
    s.phase = .serving → s.seq = .idle → s.blockNext = true → s.frames = ⟨o, cap⟩ :: rest →
    (o = .noFrame → step s = .next
      { s with turns := s.turns.tail, frames := rest, map := s.slot.getD s.map, slot := none
               outputs := s.outputs ++ [.result (.ok false 0)]
               target := none, req := none, reply := none, result := none }) ∧
    (∀ e, o = .decodeError e → step s = .next
      { s with turns := s.turns.tail, frames := rest, map := s.slot.getD s.map, slot := none
               outputs := s.outputs ++ observed s.observer (.decodeFailed e) ++
                 [.result (.err (.frameDecodeFailed e))]
               target := none, req := none, reply := none, result := none })

/-- R164: a frame for another slave, whichever value its target has, ends silently and is not
dispatched; one whose target is `SLAVE_ID`, 0 or not, is answered. -/
def Obligations.FilterComparesTargetOnly : Prop :=
  ∀ (s : State) (t8 : Byte) (i : Instr) (cap : Nat) (rest : List Frame),
    s.phase = .serving → s.seq = .idle → s.blockNext = true → i.wellFormed = true →
    s.frames = ⟨.decoded t8 i, cap⟩ :: rest →
    (t8 ≠ s.slaveId → step s = .next
      { s with turns := s.turns.tail, frames := rest, map := s.slot.getD s.map, slot := none
               outputs := s.outputs ++ [.result (.ok false 0)]
               target := none, req := none, reply := none, result := none }) ∧
    (t8 = s.slaveId → ∃ t new r, step s = .next t ∧ t.outputs = s.outputs ++ new ∧
      encRequests new = [.encReq t8 r cap])

/-- R169: the encoder's answer decides the result, and what DISPATCH wrote stays, whatever the answer.
Which answer comes is R170's. -/
def Obligations.EncoderAnswerDecidesResultOnly : Prop :=
  ∀ (s : State) (i : Instr) (cap : Nat) (rest : List Frame),
    s.phase = .serving → s.seq = .idle → s.blockNext = true → i.wellFormed = true →
    s.frames = ⟨.decoded s.slaveId i, cap⟩ :: rest →
    ∃ t r u, exec i { s with map := s.slot.getD s.map } = .next u ∧ u.reply = some r ∧
      step s = .next t ∧ t.map = u.map ∧
      t.outputs = u.outputs ++ [.encReq s.slaveId r cap, .result (match encoderAnswer r cap s with
        | .ok n => .ok true n
        | .encodeError e => .err (.responseEncodeFailed e))]

/-- R285: a write whose reply the encoder fails on is applied, and the result is the encoder's error. -/
def Obligations.WriteKeptWhenReplyLost : Prop :=
  ∀ (s : State) (addr v : Word) (cap : Nat) (rest : List Frame) (e : CodecError) (more : List EncoderAnswer),
    s.Inv → s.phase = .serving → s.blockNext = true →
    s.frames = ⟨.decoded s.slaveId (.writeSingleRegister addr v), cap⟩ :: rest → addr.toNat < s.lenH.toNat →
    s.codec = .abstract → s.encRsp = .encodeError e :: more →
    ∃ t, step s = .next t ∧ t.map.holding[addr.toNat]? = some v ∧
      t.outputs.getLast? = some (.result (.err (.responseEncodeFailed e)))

/-- R170: whatever encoder is attached, its answer is admissible; a scripted admissible answer is given
as it stands, and the informative codec answers the ADU length exactly when it fits, for every reply its
one-byte count can hold. -/
def Obligations.EncoderAnswersAdmissibly : Prop :=
  ∀ (s : State) (r : Reply) (cap : Nat),
    (admissible cap (encoderAnswer r cap s) = true) ∧
    (∀ a more, s.codec = .abstract → s.encRsp = a :: more → admissible cap a = true →
      encoderAnswer r cap s = a) ∧
    (s.codec = .informative → r.encodable = true →
      (r.aduLength ≤ cap → encoderAnswer r cap s = .ok r.aduLength) ∧
      (cap < r.aduLength → ∃ e, encoderAnswer r cap s = .encodeError e))

/-- R171: every transaction, whatever its outcome, ends IDLE and SERVING, and the port is ready for the
next frame. -/
def Obligations.TransactionReturnsToIdle : Prop :=
  ∀ (f : Frame) (s : State), s.phase = .serving → ∃ t, processFrame f s = .next t ∧
    t.seq = .idle ∧ t.phase = .serving ∧ t.frameReady = true

/-- R173: a transaction makes exactly one result, and one encode request exactly when its outcome is a
request for this block. -/
def Obligations.AtMostOneReplyPerTransaction : Prop :=
  ∀ (f : Frame) (s : State), ∃ t new, processFrame f s = .next t ∧ t.outputs = s.outputs ++ new ∧
    (frameResults new).length = 1 ∧
    (silentFor s.slaveId f.outcome = true → encRequests new = []) ∧
    (silentFor s.slaveId f.outcome = false →
      ∃ r, encRequests new = [.encReq s.slaveId r f.cap])

/-- R171, R291: the machine never stops. -/
def Obligations.EveryStepGoesOn : Prop :=
  ∀ s : State, ∃ t, step s = .next t

/-! ## Whole-machine rules -/

/-- R24, R32, R33: the map and a pending snapshot keep the configured shape, and between steps the
sequencer is IDLE and the transient registers empty. -/
def Obligations.InvariantKeptByEveryStep : Prop :=
  ∀ s t : State, s.Inv → step s = .next t → t.Inv

/-- The invariant holds after reset, whatever the parameters of construction (R37, R146). -/
def Obligations.InvariantHoldsAtReset : Prop :=
  State.reset.Inv ∧ ∀ (id : Byte) (c d h i : Word), (State.construct id c d h i none).Inv

/-- R37, R161, R284: until init has run the map is the one construction made and nothing has been sent;
it holds after construction and every step keeps it. -/
def Obligations.BootInvariantKeptByEveryStep : Prop :=
  (∀ (id : Byte) (c d h i : Word) (slot : Option Snapshot), (State.construct id c d h i slot).BootInv) ∧
  ∀ s t : State, s.BootInv → step s = .next t → t.BootInv

/-- R24, R27, R28, R281: no step changes a configuration register or a parameter, and none leaves
SERVING. -/
def Obligations.ConfigurationAndServingAreForever : Prop :=
  ∀ s t : State, step s = .next t →
    t.slaveId = s.slaveId ∧ t.lenC = s.lenC ∧ t.lenD = s.lenD ∧ t.lenH = s.lenH ∧ t.lenI = s.lenI ∧
    t.observer = s.observer ∧ t.codec = s.codec ∧ (s.phase = .serving → t.phase = .serving)

/-- R22, R131: DISCRETE and INPUT change only where a step installs a pending snapshot whole. -/
def Obligations.ReadOnlySpacesChangeOnlyBySnapshot : Prop :=
  ∀ s t : State, step s = .next t →
    (t.map.discrete = s.map.discrete ∧ t.map.input = s.map.input) ∨
    ∃ m, s.slot = some m ∧ t.slot = none ∧ t.map.discrete = m.discrete ∧ t.map.input = m.input

/-- R62, R255: a publish ordered after a transaction's POLL step never affects that transaction: it may
as well come after it. -/
def Obligations.PublishAfterPollCommutes : Prop :=
  ∀ (f : Frame) (s : State) (m : Snapshot), ∃ t,
    decodeStep f s = .next t ∧ decodeStep f (publish m s) = .next (publish m t)

/-- R162, R174: a frame that reaches no request of this block changes no later reply: the next frame does
exactly what it would have done without it. -/
def Obligations.SilentFrameChangesNoLaterReply : Prop :=
  ∀ (f0 f : Frame) (s : State), silentFor s.slaveId f0.outcome = true →
    ∃ s1 t new, processFrame f0 s = .next s1 ∧ processFrame f s = .next t ∧
      t.outputs = s.outputs ++ new ∧
      processFrame f s1 = .next { t with outputs := s1.outputs ++ new }

/-- R95: the observer is an output only: with or without it a transaction does the same, but for its
events. -/
def Obligations.ObserverChangesNothing : Prop :=
  ∀ (f : Frame) (s : State) (o : Bool), ∃ t t',
    processFrame f s = .next t ∧ processFrame f { s with observer := o } = .next t' ∧
    t' = { t with observer := o, outputs := t'.outputs } ∧ unobserved t'.outputs = unobserved t.outputs

/-- R142, R143, R286: the next frame after a delivery is served from the snapshot alone, whatever a
master wrote before, and the slot is empty afterwards. -/
def Obligations.NextFrameSeesSnapshot : Prop :=
  ∀ (s : State) (m : Snapshot) (addr qty : Word) (cap : Nat) (rest : List Frame),
    s.Inv → s.phase = .serving → s.blockNext = true → s.slot = some m →
    s.frames = ⟨.decoded s.slaveId (.readHoldingRegisters addr qty), cap⟩ :: rest →
    addr.toNat + qty.toNat ≤ s.lenH.toNat →
    ∃ t words r, step s = .next t ∧ t.map = m ∧ t.slot = none ∧ words.length = qty.toNat ∧
      (∀ k, k < qty.toNat → words[k]? = m.holding[addr.toNat + k]?) ∧
      t.outputs = s.outputs ++ [.encReq s.slaveId (.wordsResp 0x03#8 words) cap, .result r]

/-- R61, R288: a multiple write accepted in one transaction is what the next transaction reads, where no
snapshot is installed in between. -/
def Obligations.NextTransactionReadsWhatWasWritten : Prop :=
  ∀ (s : State) (addr qty : Word) (values : List Word) (cap cap' : Nat) (rest : List Frame),
    s.Inv → s.phase = .serving → s.turns = [] → s.slot = none → values.length = qty.toNat →
    s.frames = ⟨.decoded s.slaveId (.writeMultipleRegisters addr qty values), cap⟩ ::
      ⟨.decoded s.slaveId (.readHoldingRegisters addr qty), cap'⟩ :: rest →
    addr.toNat + qty.toNat ≤ s.lenH.toNat →
    ∃ t1 t2 r, step s = .next t1 ∧ step t1 = .next t2 ∧ t2.frames = rest ∧
      t2.outputs = t1.outputs ++ [.encReq s.slaveId (.wordsResp 0x03#8 values) cap', .result r]

/-- R35, R140, R287: of two snapshots published before a take only the second is left. -/
def Obligations.SecondPublishReplacesFirst : Prop :=
  ∀ (s : State) (m1 m2 : Snapshot) (rest : List Snapshot) (ts : List Turn),
    s.turns = .producer :: .producer :: ts → s.publishes = m1 :: m2 :: rest →
    s.admits m1 = true → s.admits m2 = true →
    ∃ t, step s = .next t ∧ step t = .next { s with turns := ts, publishes := rest, slot := some m2 }

/-- R146, R37: what construction leaves in every piece of the spec's state; it does not touch the slot. -/
def Obligations.ConstructionResetValues : Prop :=
  ∀ (id : Byte) (c d h i : Word) (slot : Option Snapshot),
    let s := State.construct id c d h i slot
    s.slaveId = id ∧ s.lenC = c ∧ s.lenD = d ∧ s.lenH = h ∧ s.lenI = i ∧
    (∀ a, s.map.coils[a]? = if a < c.toNat then some false else none) ∧
    (∀ a, s.map.discrete[a]? = if a < d.toNat then some false else none) ∧
    (∀ a, s.map.holding[a]? = if a < h.toNat then some 0x0000#16 else none) ∧
    (∀ a, s.map.input[a]? = if a < i.toNat then some 0x0000#16 else none) ∧
    s.phase = .awaitInit ∧ s.slot = slot ∧ State.reset.slot = none ∧ s.seq = .idle ∧
    s.req = none ∧ s.target = none ∧ s.reply = none ∧ s.result = none

/-- R144, R145, R282: a constructed block waits, changing nothing, while nothing is published, and the
first publish of a snapshot of its shape lets its init complete. That a waiting block's turn passes is
the model's rendering (log 3), and the order of the moves is data (log 2). -/
def Obligations.BootCompletesWithFirstPublish : Prop :=
  ∀ (id : Byte) (c d h i : Word) (m : Snapshot) (rest : List Snapshot),
    let s := State.construct id c d h i none
    s.admits m = true →
    step s = .next s ∧
    ∃ t, step { s with turns := [.producer], publishes := m :: rest } = .next t ∧
      t.map = s.map ∧ t.phase = .awaitInit ∧
      step t = .next { s with publishes := rest, map := m, phase := .serving }

/-! ## Encodings -/

/-- R97: decoding the PDU of a legal request, whatever follows it, gives the request back, for every
record whose byte count fits its one byte. -/
def Obligations.DecodeOfEncodeIsIdentity : Prop :=
  ∀ (i : Instr) (rest : List Byte), i.wellFormed = true → i.encodable = true →
    decode (encode i ++ rest) = .ok (i, rest)

/-- R99: the same through the ADU with its slave identifier and CRC. -/
def Obligations.DecodeOfEncodeAduIsIdentity : Prop :=
  ∀ (slave : Byte) (i : Instr), i.wellFormed = true → i.encodable = true →
    decodeAdu (encodeAdu slave (encode i)) = .ok (some (slave, i))

/-- R82, R86: whatever bytes the decoder accepts, the record is one the port admits, and its tag is the
first byte. -/
def Obligations.DecodedRequestsAreAdmitted : Prop :=
  ∀ (bytes : List Byte) (i : Instr) (rest : List Byte), decode bytes = .ok (i, rest) →
    i.wellFormed = true ∧ bytes.head? = some i.functionCode

/-- R84, R87: exactly the function codes that are none of the eight decode to `Unsupported`. -/
def Obligations.OtherCodesDecodeToUnsupported : Prop :=
  ∀ (fc : Byte) (body : List Byte),
    decode (fc :: body) = .ok (.unsupported fc, body) ↔
      fc ≠ 0x01#8 ∧ fc ≠ 0x02#8 ∧ fc ≠ 0x03#8 ∧ fc ≠ 0x04#8 ∧ fc ≠ 0x05#8 ∧ fc ≠ 0x06#8 ∧
        fc ≠ 0x0F#8 ∧ fc ≠ 0x10#8

/-- Sanity: words written out from R97's layouts decode to the requests they stand for. -/
def Obligations.WrittenOutWordsDecode : Prop :=
  decodeTableWord 40 0x0100040003 = some (.readCoils 4#16 3#16) ∧
  decodeTableWord 40 0x0200070001 = some (.readDiscreteInputs 7#16 1#16) ∧
  decodeTableWord 40 0x0300060003 = some (.readHoldingRegisters 6#16 3#16) ∧
  decodeTableWord 40 0x0400030002 = some (.readInputRegisters 3#16 2#16) ∧
  decodeTableWord 40 0x050005FF00 = some (.writeSingleCoil 5#16 true) ∧
  decodeTableWord 40 0x0600031234 = some (.writeSingleRegister 3#16 0x1234#16) ∧
  decodeTableWord 8 0x2B = some (.unsupported 0x2B#8) ∧
  decode [0x0F#8, 0x00#8, 0x08#8, 0x00#8, 0x03#8, 0x01#8, 0x05#8] =
    .ok (.writeMultipleCoils 8#16 3#16 [true, false, true], []) ∧
  decode [0x10#8, 0x00#8, 0x06#8, 0x00#8, 0x01#8, 0x02#8, 0x12#8, 0x34#8] =
    .ok (.writeMultipleRegisters 6#16 1#16 [0x1234#16], [])

/-- R98, R99: the length of a reply's ADU is 1 + PDU length + 2. For a reply whose byte count exceeds
255, which R98 cannot write, the ADU's bytes are the model's choice (log 19), and the informative codec's
answer is a draw, not this length (93 U5). -/
def Obligations.ReplyAduHasItsLength : Prop :=
  ∀ (slave : Byte) (r : Reply), (encodeAdu slave (encodeReply r)).length = r.aduLength

/-- R194: the master reads back the words of a register-read reply from its PDU. -/
def Obligations.WordsReplyRoundTrip : Prop :=
  ∀ (fc : Byte) (words : List Word), (Reply.wordsResp fc words).encodable = true →
    decodeWordsResp (encodeReply (.wordsResp fc words)) = some (fc, words)
end

