-- ==== Sys2Proof/Laws/Memory.lean ====
section
/-! SUPPORT. What MemRead, MemWrite and the validator do (00_scope.md rule R12, 40_register_map.md rule
R120), and that every memory operation keeps the map's form (10_state.md rule R24). -/

namespace Sys2Proof.Machine

variable {α : Type}

theorem memRead_succ (xs : List α) (a n : Nat) :
    memRead xs a (n + 1) = xs[a]?.toList ++ memRead xs (a + 1) n := by
  unfold memRead
  rw [List.range_succ_eq_map, List.filterMap_cons, List.filterMap_map]
  have shift : (fun k => xs[a + k]?) ∘ Nat.succ = fun k => xs[a + 1 + k]? := by
    funext k
    simp only [Function.comp_apply]
    congr 1
    omega
  rw [shift]
  cases xs[a]? <;> simp

/-- MemRead is the `n` elements from `a` on, where they exist. -/
theorem memRead_eq_take_drop (xs : List α) (a n : Nat) : memRead xs a n = (xs.drop a).take n := by
  induction n generalizing a with
  | zero => simp [memRead]
  | succ n ih =>
    rw [memRead_succ, ih]
    by_cases h : a < xs.length
    · rw [List.getElem?_eq_getElem h]
      conv_rhs => rw [List.drop_eq_getElem_cons h, List.take_succ_cons]
      rfl
    · have h' : xs.length ≤ a := by omega
      simp [List.getElem?_eq_none h', List.drop_eq_nil_of_le h',
        List.drop_eq_nil_of_le (show xs.length ≤ a + 1 by omega)]

theorem memRead_length (xs : List α) (a n : Nat) (h : a + n ≤ xs.length) :
    (memRead xs a n).length = n := by
  rw [memRead_eq_take_drop, List.length_take, List.length_drop]
  omega

theorem memRead_getElem? (xs : List α) (a n k : Nat) (h : k < n) :
    (memRead xs a n)[k]? = xs[a + k]? := by
  rw [memRead_eq_take_drop, List.getElem?_take_of_lt h, List.getElem?_drop]

theorem memWrite_length (xs vs : List α) (a : Nat) : (memWrite xs a vs).length = xs.length := by
  induction vs generalizing xs a with
  | nil => rfl
  | cons v vs ih => rw [memWrite, ih, List.length_set]

/-- A write leaves every element below its range alone. -/
theorem memWrite_getElem?_below (xs vs : List α) (a i : Nat) (h : i < a) :
    (memWrite xs a vs)[i]? = xs[i]? := by
  induction vs generalizing xs a with
  | nil => rfl
  | cons v vs ih => rw [memWrite, ih _ _ (by omega), List.getElem?_set_ne (by omega)]

/-- Inside the map, a write puts `vs[k]` at `a + k` and leaves every other element alone. -/
theorem memWrite_getElem? (xs vs : List α) (a i : Nat) (h : a + vs.length ≤ xs.length) :
    (memWrite xs a vs)[i]? = if a ≤ i ∧ i < a + vs.length then vs[i - a]? else xs[i]? := by
  induction vs generalizing xs a with
  | nil =>
    rw [if_neg (by simp only [List.length_nil]; omega)]
    rfl
  | cons v vs ih =>
    simp only [List.length_cons] at h ⊢
    rw [memWrite, ih _ _ (by rw [List.length_set]; omega)]
    rcases Nat.lt_trichotomy i a with hlt | rfl | hgt
    · rw [if_neg (by omega), if_neg (by omega), List.getElem?_set_ne (by omega)]
    · rw [if_neg (by omega), if_pos (by omega), List.getElem?_set_self (by omega), Nat.sub_self]
      rfl
    · obtain ⟨k, rfl⟩ : ∃ k, i = a + 1 + k := ⟨i - (a + 1), by omega⟩
      rw [List.getElem?_set_ne (by omega), show a + 1 + k - (a + 1) = k by omega,
        show a + 1 + k - a = k + 1 by omega, List.getElem?_cons_succ]
      by_cases hk : k < vs.length
      · rw [if_pos (by omega), if_pos (by omega)]
      · rw [if_neg (by omega), if_neg (by omega)]

/-- A read of a range just written gives the values written. -/
theorem memRead_memWrite (xs vs : List α) (a : Nat) (h : a + vs.length ≤ xs.length) :
    memRead (memWrite xs a vs) a vs.length = vs := by
  apply List.ext_getElem?
  intro k
  by_cases hk : k < vs.length
  · rw [memRead_getElem? _ _ _ _ hk, memWrite_getElem? _ _ _ _ h, if_pos (by omega),
      show a + k - a = k by omega]
  · have hlen : (memRead (memWrite xs a vs) a vs.length).length = vs.length :=
      memRead_length _ _ _ (by rw [memWrite_length]; omega)
    rw [List.getElem?_eq_none (by omega), List.getElem?_eq_none (by omega)]

/-- The overflow check decides nothing beyond the bound, since no length exceeds 0xFFFF (R120). -/
theorem valid_iff (len : Word) (a n : Nat) : valid len a n = true ↔ a + n ≤ len.toNat := by
  have hlen := len.isLt
  unfold valid
  split
  · exact iff_of_false Bool.false_ne_true (by omega)
  · exact decide_eq_true_iff

theorem valid_eq_false_iff (len : Word) (a n : Nat) : valid len a n = false ↔ len.toNat < a + n := by
  rw [← Bool.not_eq_true, valid_iff]
  omega

/-- The form of a map the block admits, said field by field. -/
theorem State.admits_iff (s : State) (m : RegMap) :
    s.admits m = true ↔ m.coils.length = s.lenC.toNat ∧ m.discrete.length = s.lenD.toNat ∧
      m.holding.length = s.lenH.toNat ∧ m.input.length = s.lenI.toNat := by
  simp [State.admits, and_assoc]

/-- The map construction makes has the configured shape (R146). -/
theorem State.construct_memoryWf (id : Byte) (c d h i : Word) (slot : Option Snapshot) :
    (State.construct id c d h i slot).memoryWf = true := by
  simp [State.memoryWf, State.admits_iff, State.construct, RegMap.zero]

theorem State.reset_memoryWf : State.reset.memoryWf = true := State.construct_memoryWf ..

end Sys2Proof.Machine
end

