-- ==== Sys2Proof/Laws/State.lean ====
section
/-! SUPPORT. What each named update of State does to each field: the field it writes takes its value, and
every other field is kept. -/

namespace Sys2Proof.Machine

/-! ### `map <- m` -/

@[simp] theorem State.setMap_slaveId (m : RegMap) (s : State) :
    (s.setMap m).slaveId = s.slaveId := rfl
@[simp] theorem State.setMap_lenC (m : RegMap) (s : State) :
    (s.setMap m).lenC = s.lenC := rfl
@[simp] theorem State.setMap_lenD (m : RegMap) (s : State) :
    (s.setMap m).lenD = s.lenD := rfl
@[simp] theorem State.setMap_lenH (m : RegMap) (s : State) :
    (s.setMap m).lenH = s.lenH := rfl
@[simp] theorem State.setMap_lenI (m : RegMap) (s : State) :
    (s.setMap m).lenI = s.lenI := rfl
@[simp] theorem State.setMap_map (m : RegMap) (s : State) :
    (s.setMap m).map = m := rfl
@[simp] theorem State.setMap_phase (m : RegMap) (s : State) :
    (s.setMap m).phase = s.phase := rfl
@[simp] theorem State.setMap_slot (m : RegMap) (s : State) :
    (s.setMap m).slot = s.slot := rfl
@[simp] theorem State.setMap_seq (m : RegMap) (s : State) :
    (s.setMap m).seq = s.seq := rfl
@[simp] theorem State.setMap_req (m : RegMap) (s : State) :
    (s.setMap m).req = s.req := rfl
@[simp] theorem State.setMap_target (m : RegMap) (s : State) :
    (s.setMap m).target = s.target := rfl
@[simp] theorem State.setMap_reply (m : RegMap) (s : State) :
    (s.setMap m).reply = s.reply := rfl
@[simp] theorem State.setMap_result (m : RegMap) (s : State) :
    (s.setMap m).result = s.result := rfl
@[simp] theorem State.setMap_observer (m : RegMap) (s : State) :
    (s.setMap m).observer = s.observer := rfl
@[simp] theorem State.setMap_codec (m : RegMap) (s : State) :
    (s.setMap m).codec = s.codec := rfl
@[simp] theorem State.setMap_turns (m : RegMap) (s : State) :
    (s.setMap m).turns = s.turns := rfl
@[simp] theorem State.setMap_publishes (m : RegMap) (s : State) :
    (s.setMap m).publishes = s.publishes := rfl
@[simp] theorem State.setMap_frames (m : RegMap) (s : State) :
    (s.setMap m).frames = s.frames := rfl
@[simp] theorem State.setMap_encRsp (m : RegMap) (s : State) :
    (s.setMap m).encRsp = s.encRsp := rfl
@[simp] theorem State.setMap_draws (m : RegMap) (s : State) :
    (s.setMap m).draws = s.draws := rfl
@[simp] theorem State.setMap_outputs (m : RegMap) (s : State) :
    (s.setMap m).outputs = s.outputs := rfl

/-! ### `slot <- v` -/

@[simp] theorem State.setSlot_slaveId (v : Option Snapshot) (s : State) :
    (s.setSlot v).slaveId = s.slaveId := rfl
@[simp] theorem State.setSlot_lenC (v : Option Snapshot) (s : State) :
    (s.setSlot v).lenC = s.lenC := rfl
@[simp] theorem State.setSlot_lenD (v : Option Snapshot) (s : State) :
    (s.setSlot v).lenD = s.lenD := rfl
@[simp] theorem State.setSlot_lenH (v : Option Snapshot) (s : State) :
    (s.setSlot v).lenH = s.lenH := rfl
@[simp] theorem State.setSlot_lenI (v : Option Snapshot) (s : State) :
    (s.setSlot v).lenI = s.lenI := rfl
@[simp] theorem State.setSlot_map (v : Option Snapshot) (s : State) :
    (s.setSlot v).map = s.map := rfl
@[simp] theorem State.setSlot_phase (v : Option Snapshot) (s : State) :
    (s.setSlot v).phase = s.phase := rfl
@[simp] theorem State.setSlot_slot (v : Option Snapshot) (s : State) :
    (s.setSlot v).slot = v := rfl
@[simp] theorem State.setSlot_seq (v : Option Snapshot) (s : State) :
    (s.setSlot v).seq = s.seq := rfl
@[simp] theorem State.setSlot_req (v : Option Snapshot) (s : State) :
    (s.setSlot v).req = s.req := rfl
@[simp] theorem State.setSlot_target (v : Option Snapshot) (s : State) :
    (s.setSlot v).target = s.target := rfl
@[simp] theorem State.setSlot_reply (v : Option Snapshot) (s : State) :
    (s.setSlot v).reply = s.reply := rfl
@[simp] theorem State.setSlot_result (v : Option Snapshot) (s : State) :
    (s.setSlot v).result = s.result := rfl
@[simp] theorem State.setSlot_observer (v : Option Snapshot) (s : State) :
    (s.setSlot v).observer = s.observer := rfl
@[simp] theorem State.setSlot_codec (v : Option Snapshot) (s : State) :
    (s.setSlot v).codec = s.codec := rfl
@[simp] theorem State.setSlot_turns (v : Option Snapshot) (s : State) :
    (s.setSlot v).turns = s.turns := rfl
@[simp] theorem State.setSlot_publishes (v : Option Snapshot) (s : State) :
    (s.setSlot v).publishes = s.publishes := rfl
@[simp] theorem State.setSlot_frames (v : Option Snapshot) (s : State) :
    (s.setSlot v).frames = s.frames := rfl
@[simp] theorem State.setSlot_encRsp (v : Option Snapshot) (s : State) :
    (s.setSlot v).encRsp = s.encRsp := rfl
@[simp] theorem State.setSlot_draws (v : Option Snapshot) (s : State) :
    (s.setSlot v).draws = s.draws := rfl
@[simp] theorem State.setSlot_outputs (v : Option Snapshot) (s : State) :
    (s.setSlot v).outputs = s.outputs := rfl

/-! ### `phase <- p` -/

@[simp] theorem State.setPhase_slaveId (p : Phase) (s : State) :
    (s.setPhase p).slaveId = s.slaveId := rfl
@[simp] theorem State.setPhase_lenC (p : Phase) (s : State) :
    (s.setPhase p).lenC = s.lenC := rfl
@[simp] theorem State.setPhase_lenD (p : Phase) (s : State) :
    (s.setPhase p).lenD = s.lenD := rfl
@[simp] theorem State.setPhase_lenH (p : Phase) (s : State) :
    (s.setPhase p).lenH = s.lenH := rfl
@[simp] theorem State.setPhase_lenI (p : Phase) (s : State) :
    (s.setPhase p).lenI = s.lenI := rfl
@[simp] theorem State.setPhase_map (p : Phase) (s : State) :
    (s.setPhase p).map = s.map := rfl
@[simp] theorem State.setPhase_phase (p : Phase) (s : State) :
    (s.setPhase p).phase = p := rfl
@[simp] theorem State.setPhase_slot (p : Phase) (s : State) :
    (s.setPhase p).slot = s.slot := rfl
@[simp] theorem State.setPhase_seq (p : Phase) (s : State) :
    (s.setPhase p).seq = s.seq := rfl
@[simp] theorem State.setPhase_req (p : Phase) (s : State) :
    (s.setPhase p).req = s.req := rfl
@[simp] theorem State.setPhase_target (p : Phase) (s : State) :
    (s.setPhase p).target = s.target := rfl
@[simp] theorem State.setPhase_reply (p : Phase) (s : State) :
    (s.setPhase p).reply = s.reply := rfl
@[simp] theorem State.setPhase_result (p : Phase) (s : State) :
    (s.setPhase p).result = s.result := rfl
@[simp] theorem State.setPhase_observer (p : Phase) (s : State) :
    (s.setPhase p).observer = s.observer := rfl
@[simp] theorem State.setPhase_codec (p : Phase) (s : State) :
    (s.setPhase p).codec = s.codec := rfl
@[simp] theorem State.setPhase_turns (p : Phase) (s : State) :
    (s.setPhase p).turns = s.turns := rfl
@[simp] theorem State.setPhase_publishes (p : Phase) (s : State) :
    (s.setPhase p).publishes = s.publishes := rfl
@[simp] theorem State.setPhase_frames (p : Phase) (s : State) :
    (s.setPhase p).frames = s.frames := rfl
@[simp] theorem State.setPhase_encRsp (p : Phase) (s : State) :
    (s.setPhase p).encRsp = s.encRsp := rfl
@[simp] theorem State.setPhase_draws (p : Phase) (s : State) :
    (s.setPhase p).draws = s.draws := rfl
@[simp] theorem State.setPhase_outputs (p : Phase) (s : State) :
    (s.setPhase p).outputs = s.outputs := rfl

/-! ### `seq <- q` -/

@[simp] theorem State.setSeq_slaveId (q : Seq) (s : State) :
    (s.setSeq q).slaveId = s.slaveId := rfl
@[simp] theorem State.setSeq_lenC (q : Seq) (s : State) :
    (s.setSeq q).lenC = s.lenC := rfl
@[simp] theorem State.setSeq_lenD (q : Seq) (s : State) :
    (s.setSeq q).lenD = s.lenD := rfl
@[simp] theorem State.setSeq_lenH (q : Seq) (s : State) :
    (s.setSeq q).lenH = s.lenH := rfl
@[simp] theorem State.setSeq_lenI (q : Seq) (s : State) :
    (s.setSeq q).lenI = s.lenI := rfl
@[simp] theorem State.setSeq_map (q : Seq) (s : State) :
    (s.setSeq q).map = s.map := rfl
@[simp] theorem State.setSeq_phase (q : Seq) (s : State) :
    (s.setSeq q).phase = s.phase := rfl
@[simp] theorem State.setSeq_slot (q : Seq) (s : State) :
    (s.setSeq q).slot = s.slot := rfl
@[simp] theorem State.setSeq_seq (q : Seq) (s : State) :
    (s.setSeq q).seq = q := rfl
@[simp] theorem State.setSeq_req (q : Seq) (s : State) :
    (s.setSeq q).req = s.req := rfl
@[simp] theorem State.setSeq_target (q : Seq) (s : State) :
    (s.setSeq q).target = s.target := rfl
@[simp] theorem State.setSeq_reply (q : Seq) (s : State) :
    (s.setSeq q).reply = s.reply := rfl
@[simp] theorem State.setSeq_result (q : Seq) (s : State) :
    (s.setSeq q).result = s.result := rfl
@[simp] theorem State.setSeq_observer (q : Seq) (s : State) :
    (s.setSeq q).observer = s.observer := rfl
@[simp] theorem State.setSeq_codec (q : Seq) (s : State) :
    (s.setSeq q).codec = s.codec := rfl
@[simp] theorem State.setSeq_turns (q : Seq) (s : State) :
    (s.setSeq q).turns = s.turns := rfl
@[simp] theorem State.setSeq_publishes (q : Seq) (s : State) :
    (s.setSeq q).publishes = s.publishes := rfl
@[simp] theorem State.setSeq_frames (q : Seq) (s : State) :
    (s.setSeq q).frames = s.frames := rfl
@[simp] theorem State.setSeq_encRsp (q : Seq) (s : State) :
    (s.setSeq q).encRsp = s.encRsp := rfl
@[simp] theorem State.setSeq_draws (q : Seq) (s : State) :
    (s.setSeq q).draws = s.draws := rfl
@[simp] theorem State.setSeq_outputs (q : Seq) (s : State) :
    (s.setSeq q).outputs = s.outputs := rfl

/-! ### `target <- t8; req <- r` -/

@[simp] theorem State.setRequest_slaveId (t8 : Byte) (r : Instr) (s : State) :
    (s.setRequest t8 r).slaveId = s.slaveId := rfl
@[simp] theorem State.setRequest_lenC (t8 : Byte) (r : Instr) (s : State) :
    (s.setRequest t8 r).lenC = s.lenC := rfl
@[simp] theorem State.setRequest_lenD (t8 : Byte) (r : Instr) (s : State) :
    (s.setRequest t8 r).lenD = s.lenD := rfl
@[simp] theorem State.setRequest_lenH (t8 : Byte) (r : Instr) (s : State) :
    (s.setRequest t8 r).lenH = s.lenH := rfl
@[simp] theorem State.setRequest_lenI (t8 : Byte) (r : Instr) (s : State) :
    (s.setRequest t8 r).lenI = s.lenI := rfl
@[simp] theorem State.setRequest_map (t8 : Byte) (r : Instr) (s : State) :
    (s.setRequest t8 r).map = s.map := rfl
@[simp] theorem State.setRequest_phase (t8 : Byte) (r : Instr) (s : State) :
    (s.setRequest t8 r).phase = s.phase := rfl
@[simp] theorem State.setRequest_slot (t8 : Byte) (r : Instr) (s : State) :
    (s.setRequest t8 r).slot = s.slot := rfl
@[simp] theorem State.setRequest_seq (t8 : Byte) (r : Instr) (s : State) :
    (s.setRequest t8 r).seq = s.seq := rfl
@[simp] theorem State.setRequest_req (t8 : Byte) (r : Instr) (s : State) :
    (s.setRequest t8 r).req = some r := rfl
@[simp] theorem State.setRequest_target (t8 : Byte) (r : Instr) (s : State) :
    (s.setRequest t8 r).target = some t8 := rfl
@[simp] theorem State.setRequest_reply (t8 : Byte) (r : Instr) (s : State) :
    (s.setRequest t8 r).reply = s.reply := rfl
@[simp] theorem State.setRequest_result (t8 : Byte) (r : Instr) (s : State) :
    (s.setRequest t8 r).result = s.result := rfl
@[simp] theorem State.setRequest_observer (t8 : Byte) (r : Instr) (s : State) :
    (s.setRequest t8 r).observer = s.observer := rfl
@[simp] theorem State.setRequest_codec (t8 : Byte) (r : Instr) (s : State) :
    (s.setRequest t8 r).codec = s.codec := rfl
@[simp] theorem State.setRequest_turns (t8 : Byte) (r : Instr) (s : State) :
    (s.setRequest t8 r).turns = s.turns := rfl
@[simp] theorem State.setRequest_publishes (t8 : Byte) (r : Instr) (s : State) :
    (s.setRequest t8 r).publishes = s.publishes := rfl
@[simp] theorem State.setRequest_frames (t8 : Byte) (r : Instr) (s : State) :
    (s.setRequest t8 r).frames = s.frames := rfl
@[simp] theorem State.setRequest_encRsp (t8 : Byte) (r : Instr) (s : State) :
    (s.setRequest t8 r).encRsp = s.encRsp := rfl
@[simp] theorem State.setRequest_draws (t8 : Byte) (r : Instr) (s : State) :
    (s.setRequest t8 r).draws = s.draws := rfl
@[simp] theorem State.setRequest_outputs (t8 : Byte) (r : Instr) (s : State) :
    (s.setRequest t8 r).outputs = s.outputs := rfl

/-! ### `reply <- r` -/

@[simp] theorem State.setReply_slaveId (r : Reply) (s : State) :
    (s.setReply r).slaveId = s.slaveId := rfl
@[simp] theorem State.setReply_lenC (r : Reply) (s : State) :
    (s.setReply r).lenC = s.lenC := rfl
@[simp] theorem State.setReply_lenD (r : Reply) (s : State) :
    (s.setReply r).lenD = s.lenD := rfl
@[simp] theorem State.setReply_lenH (r : Reply) (s : State) :
    (s.setReply r).lenH = s.lenH := rfl
@[simp] theorem State.setReply_lenI (r : Reply) (s : State) :
    (s.setReply r).lenI = s.lenI := rfl
@[simp] theorem State.setReply_map (r : Reply) (s : State) :
    (s.setReply r).map = s.map := rfl
@[simp] theorem State.setReply_phase (r : Reply) (s : State) :
    (s.setReply r).phase = s.phase := rfl
@[simp] theorem State.setReply_slot (r : Reply) (s : State) :
    (s.setReply r).slot = s.slot := rfl
@[simp] theorem State.setReply_seq (r : Reply) (s : State) :
    (s.setReply r).seq = s.seq := rfl
@[simp] theorem State.setReply_req (r : Reply) (s : State) :
    (s.setReply r).req = s.req := rfl
@[simp] theorem State.setReply_target (r : Reply) (s : State) :
    (s.setReply r).target = s.target := rfl
@[simp] theorem State.setReply_reply (r : Reply) (s : State) :
    (s.setReply r).reply = some r := rfl
@[simp] theorem State.setReply_result (r : Reply) (s : State) :
    (s.setReply r).result = s.result := rfl
@[simp] theorem State.setReply_observer (r : Reply) (s : State) :
    (s.setReply r).observer = s.observer := rfl
@[simp] theorem State.setReply_codec (r : Reply) (s : State) :
    (s.setReply r).codec = s.codec := rfl
@[simp] theorem State.setReply_turns (r : Reply) (s : State) :
    (s.setReply r).turns = s.turns := rfl
@[simp] theorem State.setReply_publishes (r : Reply) (s : State) :
    (s.setReply r).publishes = s.publishes := rfl
@[simp] theorem State.setReply_frames (r : Reply) (s : State) :
    (s.setReply r).frames = s.frames := rfl
@[simp] theorem State.setReply_encRsp (r : Reply) (s : State) :
    (s.setReply r).encRsp = s.encRsp := rfl
@[simp] theorem State.setReply_draws (r : Reply) (s : State) :
    (s.setReply r).draws = s.draws := rfl
@[simp] theorem State.setReply_outputs (r : Reply) (s : State) :
    (s.setReply r).outputs = s.outputs := rfl

/-! ### `result <- r` -/

@[simp] theorem State.setResult_slaveId (r : FrameResult) (s : State) :
    (s.setResult r).slaveId = s.slaveId := rfl
@[simp] theorem State.setResult_lenC (r : FrameResult) (s : State) :
    (s.setResult r).lenC = s.lenC := rfl
@[simp] theorem State.setResult_lenD (r : FrameResult) (s : State) :
    (s.setResult r).lenD = s.lenD := rfl
@[simp] theorem State.setResult_lenH (r : FrameResult) (s : State) :
    (s.setResult r).lenH = s.lenH := rfl
@[simp] theorem State.setResult_lenI (r : FrameResult) (s : State) :
    (s.setResult r).lenI = s.lenI := rfl
@[simp] theorem State.setResult_map (r : FrameResult) (s : State) :
    (s.setResult r).map = s.map := rfl
@[simp] theorem State.setResult_phase (r : FrameResult) (s : State) :
    (s.setResult r).phase = s.phase := rfl
@[simp] theorem State.setResult_slot (r : FrameResult) (s : State) :
    (s.setResult r).slot = s.slot := rfl
@[simp] theorem State.setResult_seq (r : FrameResult) (s : State) :
    (s.setResult r).seq = s.seq := rfl
@[simp] theorem State.setResult_req (r : FrameResult) (s : State) :
    (s.setResult r).req = s.req := rfl
@[simp] theorem State.setResult_target (r : FrameResult) (s : State) :
    (s.setResult r).target = s.target := rfl
@[simp] theorem State.setResult_reply (r : FrameResult) (s : State) :
    (s.setResult r).reply = s.reply := rfl
@[simp] theorem State.setResult_result (r : FrameResult) (s : State) :
    (s.setResult r).result = some r := rfl
@[simp] theorem State.setResult_observer (r : FrameResult) (s : State) :
    (s.setResult r).observer = s.observer := rfl
@[simp] theorem State.setResult_codec (r : FrameResult) (s : State) :
    (s.setResult r).codec = s.codec := rfl
@[simp] theorem State.setResult_turns (r : FrameResult) (s : State) :
    (s.setResult r).turns = s.turns := rfl
@[simp] theorem State.setResult_publishes (r : FrameResult) (s : State) :
    (s.setResult r).publishes = s.publishes := rfl
@[simp] theorem State.setResult_frames (r : FrameResult) (s : State) :
    (s.setResult r).frames = s.frames := rfl
@[simp] theorem State.setResult_encRsp (r : FrameResult) (s : State) :
    (s.setResult r).encRsp = s.encRsp := rfl
@[simp] theorem State.setResult_draws (r : FrameResult) (s : State) :
    (s.setResult r).draws = s.draws := rfl
@[simp] theorem State.setResult_outputs (r : FrameResult) (s : State) :
    (s.setResult r).outputs = s.outputs := rfl

/-! ### a transfer on an outgoing port -/

@[simp] theorem State.send_slaveId (o : Output) (s : State) :
    (s.send o).slaveId = s.slaveId := rfl
@[simp] theorem State.send_lenC (o : Output) (s : State) :
    (s.send o).lenC = s.lenC := rfl
@[simp] theorem State.send_lenD (o : Output) (s : State) :
    (s.send o).lenD = s.lenD := rfl
@[simp] theorem State.send_lenH (o : Output) (s : State) :
    (s.send o).lenH = s.lenH := rfl
@[simp] theorem State.send_lenI (o : Output) (s : State) :
    (s.send o).lenI = s.lenI := rfl
@[simp] theorem State.send_map (o : Output) (s : State) :
    (s.send o).map = s.map := rfl
@[simp] theorem State.send_phase (o : Output) (s : State) :
    (s.send o).phase = s.phase := rfl
@[simp] theorem State.send_slot (o : Output) (s : State) :
    (s.send o).slot = s.slot := rfl
@[simp] theorem State.send_seq (o : Output) (s : State) :
    (s.send o).seq = s.seq := rfl
@[simp] theorem State.send_req (o : Output) (s : State) :
    (s.send o).req = s.req := rfl
@[simp] theorem State.send_target (o : Output) (s : State) :
    (s.send o).target = s.target := rfl
@[simp] theorem State.send_reply (o : Output) (s : State) :
    (s.send o).reply = s.reply := rfl
@[simp] theorem State.send_result (o : Output) (s : State) :
    (s.send o).result = s.result := rfl
@[simp] theorem State.send_observer (o : Output) (s : State) :
    (s.send o).observer = s.observer := rfl
@[simp] theorem State.send_codec (o : Output) (s : State) :
    (s.send o).codec = s.codec := rfl
@[simp] theorem State.send_turns (o : Output) (s : State) :
    (s.send o).turns = s.turns := rfl
@[simp] theorem State.send_publishes (o : Output) (s : State) :
    (s.send o).publishes = s.publishes := rfl
@[simp] theorem State.send_frames (o : Output) (s : State) :
    (s.send o).frames = s.frames := rfl
@[simp] theorem State.send_encRsp (o : Output) (s : State) :
    (s.send o).encRsp = s.encRsp := rfl
@[simp] theorem State.send_draws (o : Output) (s : State) :
    (s.send o).draws = s.draws := rfl
@[simp] theorem State.send_outputs (o : Output) (s : State) :
    (s.send o).outputs = s.outputs ++ [o] := rfl

/-! ### the end of the transient registers' lifetime -/

@[simp] theorem State.clearTransients_slaveId (s : State) :
    (s.clearTransients).slaveId = s.slaveId := rfl
@[simp] theorem State.clearTransients_lenC (s : State) :
    (s.clearTransients).lenC = s.lenC := rfl
@[simp] theorem State.clearTransients_lenD (s : State) :
    (s.clearTransients).lenD = s.lenD := rfl
@[simp] theorem State.clearTransients_lenH (s : State) :
    (s.clearTransients).lenH = s.lenH := rfl
@[simp] theorem State.clearTransients_lenI (s : State) :
    (s.clearTransients).lenI = s.lenI := rfl
@[simp] theorem State.clearTransients_map (s : State) :
    (s.clearTransients).map = s.map := rfl
@[simp] theorem State.clearTransients_phase (s : State) :
    (s.clearTransients).phase = s.phase := rfl
@[simp] theorem State.clearTransients_slot (s : State) :
    (s.clearTransients).slot = s.slot := rfl
@[simp] theorem State.clearTransients_seq (s : State) :
    (s.clearTransients).seq = s.seq := rfl
@[simp] theorem State.clearTransients_req (s : State) :
    (s.clearTransients).req = none := rfl
@[simp] theorem State.clearTransients_target (s : State) :
    (s.clearTransients).target = none := rfl
@[simp] theorem State.clearTransients_reply (s : State) :
    (s.clearTransients).reply = none := rfl
@[simp] theorem State.clearTransients_result (s : State) :
    (s.clearTransients).result = none := rfl
@[simp] theorem State.clearTransients_observer (s : State) :
    (s.clearTransients).observer = s.observer := rfl
@[simp] theorem State.clearTransients_codec (s : State) :
    (s.clearTransients).codec = s.codec := rfl
@[simp] theorem State.clearTransients_turns (s : State) :
    (s.clearTransients).turns = s.turns := rfl
@[simp] theorem State.clearTransients_publishes (s : State) :
    (s.clearTransients).publishes = s.publishes := rfl
@[simp] theorem State.clearTransients_frames (s : State) :
    (s.clearTransients).frames = s.frames := rfl
@[simp] theorem State.clearTransients_encRsp (s : State) :
    (s.clearTransients).encRsp = s.encRsp := rfl
@[simp] theorem State.clearTransients_draws (s : State) :
    (s.clearTransients).draws = s.draws := rfl
@[simp] theorem State.clearTransients_outputs (s : State) :
    (s.clearTransients).outputs = s.outputs := rfl

/-! ### an answer taken from `enc_rsp` -/

@[simp] theorem State.takeAnswer_slaveId (s : State) :
    s.takeAnswer.slaveId = s.slaveId := rfl
@[simp] theorem State.takeAnswer_lenC (s : State) :
    s.takeAnswer.lenC = s.lenC := rfl
@[simp] theorem State.takeAnswer_lenD (s : State) :
    s.takeAnswer.lenD = s.lenD := rfl
@[simp] theorem State.takeAnswer_lenH (s : State) :
    s.takeAnswer.lenH = s.lenH := rfl
@[simp] theorem State.takeAnswer_lenI (s : State) :
    s.takeAnswer.lenI = s.lenI := rfl
@[simp] theorem State.takeAnswer_map (s : State) :
    s.takeAnswer.map = s.map := rfl
@[simp] theorem State.takeAnswer_phase (s : State) :
    s.takeAnswer.phase = s.phase := rfl
@[simp] theorem State.takeAnswer_slot (s : State) :
    s.takeAnswer.slot = s.slot := rfl
@[simp] theorem State.takeAnswer_seq (s : State) :
    s.takeAnswer.seq = s.seq := rfl
@[simp] theorem State.takeAnswer_req (s : State) :
    s.takeAnswer.req = s.req := rfl
@[simp] theorem State.takeAnswer_target (s : State) :
    s.takeAnswer.target = s.target := rfl
@[simp] theorem State.takeAnswer_reply (s : State) :
    s.takeAnswer.reply = s.reply := rfl
@[simp] theorem State.takeAnswer_result (s : State) :
    s.takeAnswer.result = s.result := rfl
@[simp] theorem State.takeAnswer_observer (s : State) :
    s.takeAnswer.observer = s.observer := rfl
@[simp] theorem State.takeAnswer_codec (s : State) :
    s.takeAnswer.codec = s.codec := rfl
@[simp] theorem State.takeAnswer_turns (s : State) :
    s.takeAnswer.turns = s.turns := rfl
@[simp] theorem State.takeAnswer_publishes (s : State) :
    s.takeAnswer.publishes = s.publishes := rfl
@[simp] theorem State.takeAnswer_frames (s : State) :
    s.takeAnswer.frames = s.frames := rfl
@[simp] theorem State.takeAnswer_encRsp (s : State) :
    s.takeAnswer.encRsp = restOfScript s.codec s.encRsp := rfl
@[simp] theorem State.takeAnswer_draws (s : State) :
    s.takeAnswer.draws = s.draws + 1 := rfl
@[simp] theorem State.takeAnswer_outputs (s : State) :
    s.takeAnswer.outputs = s.outputs := rfl

end Sys2Proof.Machine
end

