-- ==== Sys2Proof/Laws/Ops.lean ====
section
/-! SUPPORT. What each shared operation can do, said once: raising, finishing, the accessors,
the slot's operations, ENCODE, and `exec`. -/

namespace Sys2Proof.Machine

/-- An event is no transfer on `enc_req`. -/
theorem encRequests_observed (o : Bool) (ev : Event) : encRequests (observed o ev) = [] := by
  cases o <;> rfl

/-- An event is no transfer on `result`. -/
theorem frameResults_observed (o : Bool) (ev : Event) : frameResults (observed o ev) = [] := by
  cases o <;> rfl

/-- Raising an exception writes the reply, emits the event, and touches nothing else (R256). -/
theorem raiseException_eq (fc : Byte) (kind : ExcKind) (s : State) :
    raiseException fc kind s =
      { s with reply := some (.excResp fc kind)
               outputs := s.outputs ++ observed s.observer (.exception fc kind) } := rfl

/-- The end of a transaction: the result goes out, `seq` is IDLE, no transient register holds a value. -/
theorem finish_eq (r : FrameResult) (s : State) :
    finish r s = { s with outputs := s.outputs ++ [.result r], seq := .idle, req := none
                          target := none, reply := none, result := none } := rfl

theorem poll_of_none (s : State) (h : s.slot = none) : poll s = s := by
  simp [poll, h]

theorem poll_of_some (s : State) (m : Snapshot) (h : s.slot = some m) :
    poll s = { s with map := m, slot := none } := by
  simp [poll, h, install, State.setMap, State.setSlot]

/-- A poll changes `map` and `slot` only, and leaves the slot empty (R142). -/
theorem poll_eq (s : State) : poll s = { s with map := s.slot.getD s.map, slot := none } := by
  cases h : s.slot with
  | none => rw [poll_of_none s h, Option.getD_none, ← h]
  | some m => rw [poll_of_some s m h, Option.getD_some]

/-- `init` either changes nothing or takes the pending snapshot and enters SERVING (R145). -/
theorem initBlock_cases (s : State) :
    initBlock s = s ∨ s.phase = .awaitInit ∧ ∃ m, s.slot = some m ∧
      initBlock s = { s with map := m, slot := none, phase := .serving } := by
  unfold initBlock
  cases hp : s.phase <;> cases hs : s.slot <;> simp [install, State.setMap, State.setSlot, State.setPhase]

/-- The producer's move either changes nothing or publishes an admitted snapshot (R140, R141). -/
theorem producerMove_cases (s : State) :
    producerMove s = s ∨ ∃ m rest, s.publishes = m :: rest ∧ s.admits m = true ∧
      producerMove s = { s with publishes := rest, slot := some m } := by
  unfold producerMove
  cases hp : s.publishes with
  | nil => exact .inl rfl
  | cons m rest =>
    by_cases ha : s.admits m = true
    · exact .inr ⟨m, rest, rfl, ha, by simp [ha, publish, State.setSlot]⟩
    · exact .inl (by simp [ha])

/-- ENCODE with a reply: the request goes to the encoder, its answer is taken, the frame ends (R168,
R169). -/
theorem encodeStep_eq (cap : Nat) (s : State) (r : Reply) (h : s.reply = some r) :
    encodeStep cap s = { s.takeAnswer with
      outputs := s.outputs ++ [.encReq s.slaveId r cap, .result (resultOf (encoderAnswer r cap s))]
      seq := .idle, req := none, target := none, reply := none, result := none } := by
  simp [encodeStep, h, finish_eq, State.send]

/-- A bit read writes the reply and emits at most an event. -/
theorem answerBits_next (fc : Byte) (r : Except ExcKind (List Bool)) (s : State) :
    ∃ reply new, encRequests new = [] ∧ frameResults new = [] ∧
      answerBits fc r s = .next { s with reply := some reply, outputs := s.outputs ++ new } := by
  cases r with
  | error k =>
    exact ⟨_, _, encRequests_observed s.observer _, frameResults_observed _ _, rfl⟩
  | ok bits => exact ⟨.bitsResp fc bits (packBits bits), [], rfl, rfl, by
      simp [answerBits, answer, State.setReply]⟩

/-- A register read writes the reply and emits at most an event. -/
theorem answerWords_next (fc : Byte) (r : Except ExcKind (List Word)) (s : State) :
    ∃ reply new, encRequests new = [] ∧ frameResults new = [] ∧
      answerWords fc r s = .next { s with reply := some reply, outputs := s.outputs ++ new } := by
  cases r with
  | error k =>
    exact ⟨_, _, encRequests_observed s.observer _, frameResults_observed _ _, rfl⟩
  | ok words => exact ⟨.wordsResp fc words, [], rfl, rfl, by
      simp [answerWords, answer, State.setReply]⟩

/-- A write leaves the map or puts the accessor's map in place, writes the reply, and emits at most an
event. -/
theorem answerWrite_next (fc : Byte) (r : Except ExcKind RegMap) (sp : Space) (addr qty : Word)
    (ok : Reply) (s : State) :
    ∃ reply new, encRequests new = [] ∧ frameResults new = [] ∧
      answerWrite fc r sp addr qty ok s =
        .next { s with map := r.toOption.getD s.map, reply := some reply, outputs := s.outputs ++ new } := by
  cases r with
  | error k =>
    exact ⟨_, _, encRequests_observed s.observer _, frameResults_observed _ _, rfl⟩
  | ok m =>
    refine ⟨ok, _, encRequests_observed s.observer (.writeApplied sp addr qty),
      frameResults_observed _ _, rfl⟩

/-- The map a write accessor leaves: only coils or holding registers may differ, and no length does. -/
structure WriteLeaves (m m' : RegMap) : Prop where
  coils : m'.coils.length = m.coils.length
  discrete : m'.discrete = m.discrete
  holding : m'.holding.length = m.holding.length
  input : m'.input = m.input

theorem WriteLeaves.refl (m : RegMap) : WriteLeaves m m := ⟨rfl, rfl, rfl, rfl⟩

theorem writeSingleCoil_leaves (addr : Word) (v : Bool) (s : State) :
    WriteLeaves s.map ((writeSingleCoil addr v s).toOption.getD s.map) := by
  unfold writeSingleCoil
  split
  · exact ⟨List.length_set .., rfl, rfl, rfl⟩
  · exact .refl _

theorem writeSingleRegister_leaves (addr v : Word) (s : State) :
    WriteLeaves s.map ((writeSingleRegister addr v s).toOption.getD s.map) := by
  unfold writeSingleRegister
  split
  · exact ⟨rfl, rfl, List.length_set .., rfl⟩
  · exact .refl _

theorem writeMultipleCoils_leaves (addr : Word) (vs : List Bool) (s : State) :
    WriteLeaves s.map ((writeMultipleCoils addr vs s).toOption.getD s.map) := by
  unfold writeMultipleCoils
  split
  · exact ⟨memWrite_length .., rfl, rfl, rfl⟩
  · exact .refl _

theorem writeMultipleRegisters_leaves (addr : Word) (vs : List Word) (s : State) :
    WriteLeaves s.map ((writeMultipleRegisters addr vs s).toOption.getD s.map) := by
  unfold writeMultipleRegisters
  split
  · exact ⟨rfl, rfl, memWrite_length .., rfl⟩
  · exact .refl _

/-- All a request can do: it writes the reply, emits at most an event, and changes the map at most as a
write accessor does (R22, R57, R165, R256). -/
theorem exec_next (i : Instr) (s : State) :
    ∃ m reply new, WriteLeaves s.map m ∧ encRequests new = [] ∧ frameResults new = [] ∧
      exec i s = .next { s with map := m, reply := some reply, outputs := s.outputs ++ new } := by
  have read : ∀ {o : Host.Outcome State Fault Refusal},
      (∃ reply new, encRequests new = [] ∧ frameResults new = [] ∧
        o = .next { s with reply := some reply, outputs := s.outputs ++ new }) →
      ∃ m reply new, WriteLeaves s.map m ∧ encRequests new = [] ∧ frameResults new = [] ∧
        o = .next { s with map := m, reply := some reply, outputs := s.outputs ++ new } :=
    fun ⟨reply, new, h1, h2, h3⟩ => ⟨s.map, reply, new, .refl _, h1, h2, h3⟩
  have write : ∀ {r : Except ExcKind RegMap} (fc sp addr qty ok),
      WriteLeaves s.map (r.toOption.getD s.map) →
      ∃ m reply new, WriteLeaves s.map m ∧ encRequests new = [] ∧ frameResults new = [] ∧
        answerWrite fc r sp addr qty ok s =
          .next { s with map := m, reply := some reply, outputs := s.outputs ++ new } :=
    fun fc sp addr qty ok h =>
      let ⟨reply, new, h1, h2, h3⟩ := answerWrite_next fc _ sp addr qty ok s
      ⟨_, reply, new, h, h1, h2, h3⟩
  cases i with
  | readCoils addr qty => exact read (answerBits_next ..)
  | readDiscreteInputs addr qty => exact read (answerBits_next ..)
  | readHoldingRegisters addr qty => exact read (answerWords_next ..)
  | readInputRegisters addr qty => exact read (answerWords_next ..)
  | writeSingleCoil addr v => exact write _ _ _ _ _ (writeSingleCoil_leaves addr v s)
  | writeSingleRegister addr v => exact write _ _ _ _ _ (writeSingleRegister_leaves addr v s)
  | writeMultipleCoils addr qty vs => exact write _ _ _ _ _ (writeMultipleCoils_leaves addr vs s)
  | writeMultipleRegisters addr qty vs => exact write _ _ _ _ _ (writeMultipleRegisters_leaves addr vs s)
  | unsupported fc =>
    exact read ⟨_, _, encRequests_observed s.observer _, frameResults_observed _ _, rfl⟩

/-- A map a write leaves keeps the block's shape. -/
theorem State.admits_of_writeLeaves {s : State} {m m' : RegMap} (h : WriteLeaves m m')
    (hm : s.admits m = true) : s.admits m' = true := by
  rw [State.admits_iff] at hm ⊢
  rw [h.coils, h.discrete, h.holding, h.input]
  exact hm

end Sys2Proof.Machine
end

