-- ==== Sys2Proof/Laws/PerInstr.lean ====
section
/-! SUPPORT. Statements made for every instruction, one lemma a constructor: the family FunctionCode
(30_encoding.md rules R83, R84, R97). -/

namespace Sys2Proof.Laws.FunctionCode

/-- A request's PDU begins with its function code, and the record of a legal request carries one of the
eight codes exactly when it is not `Unsupported` (R83, R84, R97). -/
def Statement (i : Instr) : Prop :=
  (encode i).head? = some i.functionCode ∧
    (i.wellFormed = true → (supportedCodes.contains i.functionCode = true ↔ ∀ fc, i ≠ .unsupported fc))

/-- The eight operations: a supported code, and a record that is not `Unsupported`. -/
theorem of_supported (i : Instr) (code : supportedCodes.contains i.functionCode = true)
    (other : ∀ fc, i ≠ .unsupported fc) : Statement i :=
  ⟨rfl, fun _ => ⟨fun _ => other, fun _ => code⟩⟩

theorem readCoils (addr qty : Word) : Statement (.readCoils addr qty) :=
  of_supported _ rfl fun _ => Instr.noConfusion

theorem readDiscreteInputs (addr qty : Word) : Statement (.readDiscreteInputs addr qty) :=
  of_supported _ rfl fun _ => Instr.noConfusion

theorem readHoldingRegisters (addr qty : Word) : Statement (.readHoldingRegisters addr qty) :=
  of_supported _ rfl fun _ => Instr.noConfusion

theorem readInputRegisters (addr qty : Word) : Statement (.readInputRegisters addr qty) :=
  of_supported _ rfl fun _ => Instr.noConfusion

theorem writeSingleCoil (addr : Word) (value : Bool) : Statement (.writeSingleCoil addr value) :=
  of_supported _ rfl fun _ => Instr.noConfusion

theorem writeSingleRegister (addr value : Word) : Statement (.writeSingleRegister addr value) :=
  of_supported _ rfl fun _ => Instr.noConfusion

theorem writeMultipleCoils (addr qty : Word) (values : List Bool) :
    Statement (.writeMultipleCoils addr qty values) :=
  of_supported _ rfl fun _ => Instr.noConfusion

theorem writeMultipleRegisters (addr qty : Word) (values : List Word) :
    Statement (.writeMultipleRegisters addr qty values) :=
  of_supported _ rfl fun _ => Instr.noConfusion

theorem unsupported (fc : Byte) : Statement (.unsupported fc) := by
  refine ⟨rfl, fun h => ⟨fun hc => ?_, fun hn => absurd rfl (hn fc)⟩⟩
  change (!supportedCodes.contains fc) = true at h
  change supportedCodes.contains fc = true at hc
  rw [hc] at h
  exact absurd h (by decide)

end Sys2Proof.Laws.FunctionCode
end

