-- ==== Sys2Proof/Laws/Transaction.lean ====
section
/-! SUPPORT. What a frame transaction and a step can do, said once (42_dispatcher.md, 20_memory.md rule
R62): proofs about runs cite these instead of unfolding the step. -/

namespace Sys2Proof.Machine

/-- DISPATCH and ENCODE, from what `exec` gives (R165, R168, R169). -/
theorem dispatchStep_of_exec (i : Instr) (cap : Nat) (s u : State) (r : Reply)
    (h : exec i (s.setSeq .dispatch) = .next u) (hr : u.reply = some r) :
    dispatchStep i cap s = .next { u.takeAnswer with
      outputs := u.outputs ++ [.encReq u.slaveId r cap, .result (resultOf (encoderAnswer r cap u))]
      seq := .idle, req := none, target := none, reply := none, result := none } := by
  rw [dispatchStep, h]
  exact congrArg _ (encodeStep_eq cap (u.setSeq .encode) r hr)

/-- All DISPATCH and ENCODE can do to the state. -/
theorem dispatchStep_next (i : Instr) (cap : Nat) (s : State) :
    ∃ m new, WriteLeaves s.map m ∧ dispatchStep i cap s = .next { s.takeAnswer with
      map := m, outputs := s.outputs ++ new
      seq := .idle, req := none, target := none, reply := none, result := none } := by
  obtain ⟨m, r, new, hm, -, -, h⟩ := exec_next i (s.setSeq .dispatch)
  refine ⟨m, new ++ [.encReq s.slaveId r cap, .result (resultOf (encoderAnswer r cap s))], hm,
    (dispatchStep_of_exec i cap s _ r h rfl).trans ?_⟩
  simp [State.takeAnswer, State.setSeq, encoderAnswer]

/-- A transaction is its poll, then DECODE and the rest (R160, R162). -/
theorem processFrame_eq (f : Frame) (s : State) :
    processFrame f s =
      decodeStep f { s with map := s.slot.getD s.map, slot := none, seq := .decode } := by
  rw [processFrame, poll_eq]
  rfl

/-- All a transaction can do to the state (R160, R171): it installs a pending snapshot, changes the map
at most as one write does, moves the encoder's script and the draws, sends on the outgoing ports, and
ends IDLE with no transient value. -/
theorem processFrame_next (f : Frame) (s : State) :
    ∃ m new script draws, WriteLeaves (s.slot.getD s.map) m ∧
      processFrame f s = .next
        { s with map := m, slot := none, outputs := s.outputs ++ new, encRsp := script, draws := draws
                 seq := .idle, req := none, target := none, reply := none, result := none } := by
  rw [processFrame_eq]
  obtain ⟨outcome, cap⟩ := f
  cases outcome with
  | noFrame => exact ⟨_, [.result (.ok false 0)], s.encRsp, s.draws, .refl _, rfl⟩
  | decodeError e =>
    refine ⟨_, observed s.observer (.decodeFailed e) ++ [.result (.err (.frameDecodeFailed e))],
      s.encRsp, s.draws, .refl _, ?_⟩
    simp [decodeStep, emit, finish_eq]
  | decoded t8 i =>
    by_cases hmine : t8 = s.slaveId
    · obtain ⟨m, new, hm, h⟩ := dispatchStep_next i cap ((State.setRequest t8 i
        { s with map := s.slot.getD s.map, slot := none, seq := .decode }).setSeq .filter)
      exact ⟨m, new, restOfScript s.codec s.encRsp, s.draws + 1, hm, (if_pos hmine).trans h⟩
    · exact ⟨_, [.result (.ok false 0)], s.encRsp, s.draws, .refl _, if_neg hmine⟩

/-- Where the block moves next, a step is its move (R62). -/
theorem step_of_blockNext (s : State) (h : s.blockNext = true) :
    step s = blockMove { s with turns := s.turns.tail } := by
  unfold step takeTurn
  unfold State.blockNext at h
  cases ht : s.turns with
  | nil =>
    change blockMove s = _
    rw [List.tail_nil, ← ht]
  | cons t ts => cases t <;> simp_all

/-- A ready block takes an admitted frame (R161). -/
theorem step_takes_frame (s : State) (f : Frame) (rest : List Frame) (hp : s.phase = .serving)
    (hq : s.seq = .idle) (hb : s.blockNext = true) (hf : s.frames = f :: rest)
    (ha : f.outcome.admitted = true) :
    step s = processFrame f { s with turns := s.turns.tail, frames := rest } := by
  rw [step_of_blockNext s hb]
  simp [blockMove, hp, hf, State.frameReady, State.serving, hq, ha]

/-- The four things a move can be. -/
inductive Moves (s : State) : State → Prop where
  /-- no step: the turn passes (R263, R284; 92 D33) -/
  | pass (ts : List Turn) : Moves s { s with turns := ts }
  /-- a publish (R140, R141) -/
  | published (m : Snapshot) (ts : List Turn) (ps : List Snapshot) (ha : s.admits m = true) :
      Moves s { s with turns := ts, publishes := ps, slot := some m }
  /-- init (R145) -/
  | initialised (m : Snapshot) (ts : List Turn) (hp : s.phase = .awaitInit) (hs : s.slot = some m) :
      Moves s { s with turns := ts, map := m, slot := none, phase := .serving }
  /-- a frame transaction (R160, R161) -/
  | transaction (m : RegMap) (new : List Output) (script : List EncoderAnswer) (draws : Nat)
      (ts : List Turn) (f : Frame) (fs : List Frame) (hp : s.phase = .serving) (hq : s.seq = .idle)
      (hf : s.frames = f :: fs) (hm : WriteLeaves (s.slot.getD s.map) m) :
      Moves s
        { s with turns := ts, frames := fs, map := m, slot := none, outputs := s.outputs ++ new
                 encRsp := script, draws := draws
                 seq := .idle, req := none, target := none, reply := none, result := none }

/-- `init` on a state whose turn has been taken. -/
theorem moves_initBlock (s : State) (ts : List Turn) : Moves s (initBlock { s with turns := ts }) := by
  rcases initBlock_cases { s with turns := ts } with h | ⟨hp, m, hs, h⟩ <;> rw [h]
  · exact .pass ts
  · exact .initialised m ts hp hs

/-- The producer's move on a state whose turn has been taken. -/
theorem moves_producerMove (s : State) (ts : List Turn) :
    Moves s (producerMove { s with turns := ts }) := by
  rcases producerMove_cases { s with turns := ts } with h | ⟨m, rest, -, ha, h⟩ <;> rw [h]
  · exact .pass ts
  · exact .published m ts rest ha

/-- The block's move on a state whose turn has been taken. -/
theorem moves_blockMove (s : State) (ts : List Turn) :
    ∃ t, blockMove { s with turns := ts } = .next t ∧ Moves s t := by
  unfold blockMove
  split <;> rename_i hp hf
  · exact ⟨_, rfl, moves_initBlock s ts⟩
  · exact ⟨_, rfl, .pass ts⟩
  · split <;> rename_i hr
    · obtain ⟨m, new, script, draws, hm, h⟩ := processFrame_next _ _
      refine ⟨_, h, .transaction m new script draws ts _ _ hp ?_ hf hm⟩
      simp only [State.frameReady, Bool.and_eq_true, beq_iff_eq] at hr
      exact hr.1.2
    · exact ⟨_, rfl, .pass ts⟩

/-- All a step can do. -/
theorem step_moves (s : State) : ∃ t, step s = .next t ∧ Moves s t := by
  unfold step takeTurn
  split
  · exact moves_blockMove s s.turns
  · exact moves_blockMove s _
  · exact ⟨_, rfl, moves_producerMove s _⟩
  · exact ⟨_, rfl, moves_initBlock s _⟩

end Sys2Proof.Machine
end

