-- ==== Sys2Proof/Tests/Slice0.lean ====
section
/-! SUPPORT. Tests and witnesses. Every expected value is copied from the spec's worked examples and
vectors (95_test_vectors.md) or worked out by hand from the rule named, never from the model. -/

namespace Sys2Proof.Tests

open Sys2Proof.Machine

/-! ## States the tests run on -/

/-- The configuration of 95_test_vectors.md L2 (SLAVE_ID 0x11, C = 16, D = 8, H = 8, I = 4), serving,
all false and zero. -/
def blank : State :=
  { State.construct 0x11#8 16#16 8#16 8#16 4#16 none with phase := .serving }

/-- The map of 95_test_vectors.md L2.2. -/
def sampleMap : RegMap where
  coils := [false, false, false, false, false, true] ++ List.replicate 10 false
  discrete := [true, false, true, false, false, false, false, true]
  holding := [100, 200, 300, 400, 500, 600, 700, 800]
  input := [0x1111, 0x2222, 0x3333, 0x4444]

/-- The state of 95_test_vectors.md L2.2. -/
def sample : State := { blank with map := sampleMap }

/-- A state with one frame for this block, and the informative codec of R170. -/
def presenting (i : Instr) (cap : Nat) (s : State) : State :=
  { s with codec := .informative, frames := [⟨.decoded 0x11#8 i, cap⟩] }

/-- What holds of the state an outcome goes on to. -/
def goes (o : Host.Outcome State Fault Refusal) (p : State → Bool) : Bool :=
  match o with
  | .next t => p t
  | .fault _ => false
  | .refused _ => false

/-- The state two outcomes in a row go on to. -/
def twice (s : State) (p : State → Bool) : Bool := goes (step s) fun t => goes (step t) p

/-! ## Ill-formed records (R82, R86): one for each check -/

theorem test_illFormed_coils : (Instr.writeMultipleCoils 0 2 [true]).wellFormed = false := by decide

theorem test_illFormed_registers : (Instr.writeMultipleRegisters 0 1 [1, 2]).wellFormed = false := by
  decide

theorem test_illFormed_unsupported : (Instr.unsupported 0x10).wellFormed = false := by decide

/-! ## Decoding: PDUs copied from 95_test_vectors.md (the ADU without slave and CRC) -/

/-- L2.2 `ReadCoils(4, 3)`: `11 01 00 04 00 03 3F 5A`. -/
theorem test_decode_readCoils :
    decode [0x01, 0x00, 0x04, 0x00, 0x03] = .ok (.readCoils 4 3, []) := by decide

/-- L2.2 `ReadDiscreteInputs(7, 1)`: `11 02 00 07 00 01 0A 9B`. -/
theorem test_decode_readDiscreteInputs :
    decode [0x02, 0x00, 0x07, 0x00, 0x01] = .ok (.readDiscreteInputs 7 1, []) := by decide

/-- L2.2 `ReadHoldingRegisters(1, 0xFFFF)`: `11 03 00 01 FF FF 17 2A`. -/
theorem test_decode_readHoldingRegisters :
    decode [0x03, 0x00, 0x01, 0xFF, 0xFF] = .ok (.readHoldingRegisters 1 0xFFFF, []) := by decide

/-- L2.2 `ReadInputRegisters(3, 2)`: `11 04 00 03 00 02 83 5B`. -/
theorem test_decode_readInputRegisters :
    decode [0x04, 0x00, 0x03, 0x00, 0x02] = .ok (.readInputRegisters 3 2, []) := by decide

/-- L2.3 `WriteSingleCoil(15, true)`: `11 05 00 0F FF 00 BE A9`. -/
theorem test_decode_writeSingleCoil :
    decode [0x05, 0x00, 0x0F, 0xFF, 0x00] = .ok (.writeSingleCoil 15 true, []) := by decide

/-- P3 line 8 `WriteSingleRegister 3, 0x1234`: `11 06 00 03 12 34 76 2D`. -/
theorem test_decode_writeSingleRegister :
    decode [0x06, 0x00, 0x03, 0x12, 0x34] = .ok (.writeSingleRegister 3 0x1234, []) := by decide

/-- P2 line 5 `WriteMultipleCoils 8, [1, 0, 1]`: `11 0F 00 08 00 03 01 05 AF 99`. -/
theorem test_decode_writeMultipleCoils :
    decode [0x0F, 0x00, 0x08, 0x00, 0x03, 0x01, 0x05] =
      .ok (.writeMultipleCoils 8 3 [true, false, true], []) := by decide

/-- P3 line 3 `WriteMultipleRegisters 6, [7, 8, 9]`: `11 10 00 06 00 03 06 00 07 00 08 00 09 CC 0B`. -/
theorem test_decode_writeMultipleRegisters :
    decode [0x10, 0x00, 0x06, 0x00, 0x03, 0x06, 0x00, 0x07, 0x00, 0x08, 0x00, 0x09] =
      .ok (.writeMultipleRegisters 6 3 [7, 8, 9], []) := by decide

/-- P3 line 7 `Unsupported 0x07`: `11 07 4C 22`. -/
theorem test_decode_unsupported : decode [0x07] = .ok (.unsupported 0x07, []) := by decide

/-- A coil value other than 0xFF00 and 0x0000 has no Bool meaning (R97, 93 U4). -/
theorem test_decode_badCoil : decode [0x05, 0x00, 0x0F, 0x00, 0x01] = .error .coilValue := by decide

/-- A byte count that is not `ceil(qty / 8)` (R97). -/
theorem test_decode_badCount :
    decode [0x0F, 0x00, 0x00, 0x00, 0x09, 0x01, 0xFF] = .error .byteCount := by decide

set_option maxRecDepth 20000 in
/-- L2.3 `WriteMultipleCoils(0, 9, [true × 9])`: `11 0F 00 00 00 09 02 FF 01 A8 8C`. -/
theorem test_encodeAdu_writeMultipleCoils :
    encodeAdu 0x11 (encode (.writeMultipleCoils 0 9 (List.replicate 9 true))) =
      [0x11, 0x0F, 0x00, 0x00, 0x00, 0x09, 0x02, 0xFF, 0x01, 0xA8, 0x8C] := by decide

set_option maxRecDepth 20000 in
/-- V7's first request ADU. -/
theorem test_encodeAdu_writeMultipleRegisters :
    encodeAdu 0x01 (encode (.writeMultipleRegisters 0 3 [1, 2, 3])) =
      [0x01, 0x10, 0x00, 0x00, 0x00, 0x03, 0x06, 0x00, 0x01, 0x00, 0x02, 0x00, 0x03, 0x3A, 0x81] := by
  decide

set_option maxRecDepth 20000 in
/-- V6's request ADU, `WriteSingleCoil(5, true)` to slave 1. -/
theorem test_decodeAdu_writeSingleCoil :
    decodeAdu [0x01, 0x05, 0x00, 0x05, 0xFF, 0x00, 0x9C, 0x3B] =
      .ok (some (0x01, .writeSingleCoil 5 true)) := by decide

set_option maxRecDepth 20000 in
/-- The same ADU with one bit of the CRC turned is malformed (R99). -/
theorem test_decodeAdu_badCrc :
    decodeAdu [0x01, 0x05, 0x00, 0x05, 0xFF, 0x00, 0x9C, 0x3A] = .error .crc := by decide

set_option maxRecDepth 20000 in
/-- An unsupported code with a body is delivered as the record alone (log 14). The CRC comes from
`crcBytes`, which `test_crc_example` checks. -/
theorem test_decodeAdu_unsupportedBody :
    decodeAdu ([0x11, 0x2B, 0x0E, 0x01, 0x00] ++ crcBytes [0x11, 0x2B, 0x0E, 0x01, 0x00]) =
      .ok (some (0x11, .unsupported 0x2B)) := by decide

/-- P2 line 5's PDU with pad bits set: the same three coils (log 14). -/
theorem test_decode_padBits :
    decode [0x0F, 0x00, 0x08, 0x00, 0x03, 0x01, 0xFD] =
      .ok (.writeMultipleCoils 8 3 [true, false, true], []) := by decide

set_option maxRecDepth 20000 in
/-- R99's example. -/
theorem test_crc_example : crcBytes [0x01, 0x03, 0x00, 0x00, 0x00, 0x0A] = [0xC5, 0xCD] := by decide

/-- L2.6: the bits 1, 0, 1, 0, 0, 0, 0, 1. -/
theorem test_packBits_byte :
    packBits [true, false, true, false, false, false, false, true] = [0x85] := by decide

/-- L2.6: ten bits, the last byte padded. -/
theorem test_packBits_pad :
    packBits [true, false, false, false, false, false, false, false, true, true] = [0x01, 0x03] := by
  decide

/-! ## Replies on the wire (R98, R99) -/

set_option maxRecDepth 20000 in
/-- L2.2 `ReadCoils(0, 16)`. -/
theorem test_replyAdu_bits :
    encodeAdu 0x11 (encodeReply (.bitsResp 0x01 sampleMap.coils [0x20, 0x00])) =
      [0x11, 0x01, 0x02, 0x20, 0x00, 0x61, 0xFF] := by decide

set_option maxRecDepth 20000 in
/-- V3. -/
theorem test_replyAdu_words :
    encodeAdu 0x01 (encodeReply (.wordsResp 0x03 [12, 13, 14])) =
      [0x01, 0x03, 0x06, 0x00, 0x0C, 0x00, 0x0D, 0x00, 0x0E, 0x21, 0x73] := by decide

set_option maxRecDepth 20000 in
/-- L2.3 `WriteMultipleCoils(16, 0, [])`. -/
theorem test_replyAdu_multi :
    encodeAdu 0x11 (encodeReply (.multiResp 0x0F 16 0)) =
      [0x11, 0x0F, 0x00, 0x10, 0x00, 0x00, 0x56, 0x9E] := by decide

set_option maxRecDepth 20000 in
/-- L2.4 `Unsupported(0x2B)`. -/
theorem test_replyAdu_exception :
    encodeAdu 0x11 (encodeReply (.excResp 0x2B .illegalFunction)) = [0x11, 0xAB, 0x01, 0x9F, 0x35] := by
  decide

/-! ## The requests (L2.2, L2.3, L2.4): one success and one edge each -/

theorem test_readCoils_middle :
    goes (exec (.readCoils 4 3) sample) (fun t =>
      t.reply = some (.bitsResp 0x01 [false, true, false] [0x02])) = true := by decide

theorem test_readCoils_emptyPastEnd :
    goes (exec (.readCoils 17 0) sample) (fun t =>
      t.reply = some (.excResp 0x01 .illegalDataAddress)) = true := by decide

theorem test_readDiscreteInputs_all :
    goes (exec (.readDiscreteInputs 0 8) sample) (fun t =>
      t.reply = some (.bitsResp 0x02 sampleMap.discrete [0x85])) = true := by decide

theorem test_readDiscreteInputs_onePast :
    goes (exec (.readDiscreteInputs 0 9) sample) (fun t =>
      t.reply = some (.excResp 0x02 .illegalDataAddress)) = true := by decide

theorem test_readHoldingRegisters_middle :
    goes (exec (.readHoldingRegisters 1 3) sample) (fun t =>
      t.reply = some (.wordsResp 0x03 [200, 300, 400])) = true := by decide

theorem test_readHoldingRegisters_overflow :
    goes (exec (.readHoldingRegisters 1 0xFFFF) sample) (fun t =>
      t.reply = some (.excResp 0x03 .illegalDataAddress)) = true := by decide

theorem test_readInputRegisters_last :
    goes (exec (.readInputRegisters 3 1) sample) (fun t =>
      t.reply = some (.wordsResp 0x04 [0x4444])) = true := by decide

theorem test_readInputRegisters_onePast :
    goes (exec (.readInputRegisters 3 2) sample) (fun t =>
      t.reply = some (.excResp 0x04 .illegalDataAddress)) = true := by decide

/-- V6: one coil of sixteen changes. -/
theorem test_writeSingleCoil_five :
    goes (exec (.writeSingleCoil 5 true) blank) (fun t =>
      t.map.coils = sampleMap.coils && t.reply = some (.echoCoilResp 5 true)) = true := by decide

theorem test_writeSingleCoil_past :
    goes (exec (.writeSingleCoil 16 false) blank) (fun t =>
      t.map = blank.map && t.outputs = [.event (.exception 0x05 .illegalDataAddress)]) = true := by decide

theorem test_writeSingleRegister_last :
    goes (exec (.writeSingleRegister 7 0xFFFF) blank) (fun t =>
      t.map.holding = [0, 0, 0, 0, 0, 0, 0, 0xFFFF] &&
        t.outputs = [.event (.writeApplied .holding 7 1)]) = true := by decide

theorem test_writeSingleRegister_top :
    goes (exec (.writeSingleRegister 0xFFFF 1) blank) (fun t =>
      t.map = blank.map && t.reply = some (.excResp 0x06 .illegalDataAddress)) = true := by decide

/-- R212's example: coils 8 and 10 set, coil 9 cleared. -/
theorem test_writeMultipleCoils_three :
    goes (exec (.writeMultipleCoils 8 3 [true, false, true]) { blank with map :=
      { blank.map with coils := blank.map.coils.set 9 true } }) (fun t =>
      t.map.coils = List.replicate 8 false ++ [true, false, true, false, false, false, false, false] &&
        t.reply = some (.multiResp 0x0F 8 3)) = true := by decide

/-- P2 line 4: coils 14 and 15 untouched. -/
theorem test_writeMultipleCoils_allOrNothing :
    goes (exec (.writeMultipleCoils 14 3 [true, true, true]) blank) (fun t =>
      t.map = blank.map && t.reply = some (.excResp 0x0F .illegalDataAddress)) = true := by decide

/-- V7. -/
theorem test_writeMultipleRegisters_three :
    goes (exec (.writeMultipleRegisters 0 3 [1, 2, 3]) blank) (fun t =>
      t.map.holding = [1, 2, 3, 0, 0, 0, 0, 0] && t.reply = some (.multiResp 0x10 0 3)) = true := by
  decide

/-- V7: bound 8 exceeded. -/
theorem test_writeMultipleRegisters_allOrNothing :
    goes (exec (.writeMultipleRegisters 6 3 [1, 2, 3]) blank) (fun t =>
      t.map = blank.map && t.reply = some (.excResp 0x10 .illegalDataAddress)) = true := by decide

theorem test_unsupported_seven :
    goes (exec (.unsupported 0x07) blank) (fun t =>
      t.reply = some (.excResp 0x07 .illegalFunction) && t.map = blank.map) = true := by decide

/-! ## The frame transaction (L2.4) -/

/-- Capacity 7 holds the reply's ADU. -/
theorem test_frame_fits :
    goes (step (presenting (.readHoldingRegisters 0 1) 7 blank)) (fun t =>
      t.outputs = [.encReq 0x11 (.wordsResp 0x03 [0]) 7, .result (.ok true 7)]) = true := by decide

/-- Capacity 4 does not: the write is kept, no reply is produced, and the events come before the
result (R169, 92 D28). -/
theorem test_frame_writeKept :
    goes (step (presenting (.writeSingleRegister 3 0x1234) 4 blank)) (fun t =>
      t.map.holding = [0, 0, 0, 0x1234, 0, 0, 0, 0] &&
        t.outputs.take 2 = [.event (.writeApplied .holding 3 1),
          .encReq 0x11 (.echoRegResp 3 0x1234) 4]) = true := by decide

/-- A scripted encoder error decides the result (R169). -/
theorem test_frame_encodeError :
    goes (step { blank with encRsp := [.encodeError ⟨9⟩], frames := [⟨.decoded 0x11 (.readCoils 0 0), 8⟩] })
      (fun t => t.outputs.getLast? = some (.result (.err (.responseEncodeFailed ⟨9⟩)))) = true := by
  decide

theorem test_frame_decodeError :
    goes (step { blank with frames := [⟨.decodeError ⟨5⟩, 256⟩] }) (fun t =>
      t.outputs = [.event (.decodeFailed ⟨5⟩), .result (.err (.frameDecodeFailed ⟨5⟩))]) = true := by
  decide

theorem test_frame_otherSlave :
    goes (step { blank with frames := [⟨.decoded 0x12 (.writeSingleRegister 0 0xFFFF), 256⟩] }) (fun t =>
      t.outputs = [.result (.ok false 0)] && t.map = blank.map) = true := by decide

/-- Address 0 is not broadcast (L2.4, 92 D19). -/
theorem test_frame_zeroIsNoBroadcast :
    goes (step { blank with frames := [⟨.decoded 0x00 (.readHoldingRegisters 0 1), 256⟩] }) (fun t =>
      t.outputs = [.result (.ok false 0)]) = true := by decide

/-- Before init a frame is not taken (L2.4 last row). -/
theorem test_frame_beforeInit :
    goes (step { blank with phase := .awaitInit, frames := [⟨.noFrame, 256⟩] }) (fun t =>
      t.frames = [⟨.noFrame, 256⟩] && t.outputs = []) = true := by decide

/-! ## The synchronizer (L2.5) -/

/-- V5: a second publish replaces the first. -/
theorem test_publish_twice :
    twice { blank with turns := [.producer, .producer], publishes := [blank.map, sampleMap] } (fun t =>
      t.slot = some sampleMap && t.map = blank.map) = true := by decide

theorem test_publish_misshaped :
    goes (step { blank with turns := [.producer], publishes := [{ sampleMap with holding := [1] }] })
      (fun t => t.slot = none && t.publishes.length = 1) = true := by decide

/-- `PUBLISH A`, `init` after `new`. -/
theorem test_publish_init :
    twice { State.reset with turns := [.producer], publishes := [sampleMap] } (fun t =>
      t.map = sampleMap && t.slot = none && t.phase = .serving) = true := by decide

theorem test_init_waits : goes (step State.reset) (fun t => t = State.reset) = true := by decide

theorem test_init_second :
    goes (step { blank with turns := [.initCall], slot := some sampleMap }) (fun t =>
      t.map = blank.map && t.slot = some sampleMap) = true := by decide

/-- `PUBLISH A`, `NOFRAME`: the poll of a transaction without a frame installs. -/
theorem test_noFrame_installs :
    goes (step { blank with slot := some sampleMap, frames := [⟨.noFrame, 256⟩] }) (fun t =>
      t.map = sampleMap && t.slot = none && t.outputs = [.result (.ok false 0)]) = true := by decide

/-! ## Fetching a table word right after reset -/

theorem test_fetch_readCoils :
    goes (step (State.reset.withFetchWord 40 0x0100000000)) (fun t =>
      t.outputs.head? = some (.encReq 0x11 (.bitsResp 0x01 [] []) 256)) = true := by decide

theorem test_fetch_writeMultipleRegisters :
    goes (step (State.reset.withFetchWord 40 0x1000000000)) (fun t =>
      t.outputs[1]? = some (.encReq 0x11 (.multiResp 0x10 0 0) 256)) = true := by decide

theorem test_fetch_unsupported :
    goes (step (State.reset.withFetchWord 8 0)) (fun t =>
      t.outputs.head? = some (.event (.exception 0x00 .illegalFunction))) = true := by decide

/-! ## Witnesses: for each obligation with hypotheses, a state and operands that meet them, each clause
at the edge of its range. The obligation is the one the name ends in. -/

/-- `sample`, with a pending snapshot, one frame for this block, and a script for the encoder. -/
def ready (i : Instr) : State :=
  { sample with slot := some blank.map, encRsp := [.ok 4], frames := [⟨.decoded 0x11#8 i, 4⟩] }

/-- Exactly to the end, empty at the end, one past it, empty past it, over the 16-bit domain. -/
theorem witness_ReadCoilsAnswersRangeOrRaises : sample.memoryWf = true ∧
    (0#16).toNat + (16#16).toNat ≤ sample.lenC.toNat ∧ (16#16).toNat + (0#16).toNat ≤ sample.lenC.toNat ∧
    sample.lenC.toNat < (0#16).toNat + (17#16).toNat ∧ sample.lenC.toNat < (17#16).toNat + (0#16).toNat ∧
    sample.lenC.toNat < (0xFFFF#16).toNat + (1#16).toNat := by decide

theorem witness_ReadDiscreteInputsAnswersRangeOrRaises : sample.memoryWf = true ∧
    (0#16).toNat + (8#16).toNat ≤ sample.lenD.toNat ∧ (8#16).toNat + (0#16).toNat ≤ sample.lenD.toNat ∧
    sample.lenD.toNat < (0#16).toNat + (9#16).toNat ∧ sample.lenD.toNat < (9#16).toNat + (0#16).toNat := by
  decide

theorem witness_ReadHoldingRegistersAnswersRangeOrRaises : sample.memoryWf = true ∧
    (0#16).toNat + (8#16).toNat ≤ sample.lenH.toNat ∧ (8#16).toNat + (0#16).toNat ≤ sample.lenH.toNat ∧
    sample.lenH.toNat < (6#16).toNat + (3#16).toNat ∧
    sample.lenH.toNat < (1#16).toNat + (0xFFFF#16).toNat := by decide

theorem witness_ReadInputRegistersAnswersRangeOrRaises : sample.memoryWf = true ∧
    (3#16).toNat + (1#16).toNat ≤ sample.lenI.toNat ∧ (4#16).toNat + (0#16).toNat ≤ sample.lenI.toNat ∧
    sample.lenI.toNat < (3#16).toNat + (2#16).toNat := by decide

theorem witness_WriteSingleCoilWritesOneOrRaises : blank.memoryWf = true ∧
    (0#16).toNat < blank.lenC.toNat ∧ (15#16).toNat < blank.lenC.toNat ∧
    blank.lenC.toNat ≤ (16#16).toNat ∧ blank.lenC.toNat ≤ (0xFFFF#16).toNat := by decide

theorem witness_WriteSingleRegisterWritesOneOrRaises : blank.memoryWf = true ∧
    (0#16).toNat < blank.lenH.toNat ∧ (7#16).toNat < blank.lenH.toNat ∧
    blank.lenH.toNat ≤ (8#16).toNat ∧ blank.lenH.toNat ≤ (0xFFFF#16).toNat := by decide

theorem witness_WriteMultipleCoilsWritesAllOrRaises : blank.memoryWf = true ∧
    ((2040#16).toNat + 7) / 8 ≤ 255 ∧ [true, true].length = (2#16).toNat ∧ (14#16).toNat + (2#16).toNat ≤ blank.lenC.toNat ∧
    ([] : List Bool).length = (0#16).toNat ∧ (16#16).toNat + (0#16).toNat ≤ blank.lenC.toNat ∧
    [true, true, true].length = (3#16).toNat ∧ blank.lenC.toNat < (14#16).toNat + (3#16).toNat := by decide

theorem witness_WriteMultipleRegistersWritesAllOrRaises : blank.memoryWf = true ∧
    2 * (127#16).toNat ≤ 255 ∧
    [7#16, 8#16, 9#16].length = (3#16).toNat ∧ (5#16).toNat + (3#16).toNat ≤ blank.lenH.toNat ∧
    ([] : List Word).length = (0#16).toNat ∧ (8#16).toNat + (0#16).toNat ≤ blank.lenH.toNat ∧
    blank.lenH.toNat < (6#16).toNat + (3#16).toNat := by decide

/-- No range, a range in the map, and one past it. -/
theorem witness_ExceptionExactlyByCodeOrRange :
    (Instr.unsupported 0x2B).wellFormed = true ∧ requestRange (.unsupported 0x2B) = none ∧
    (Instr.writeMultipleCoils 14 2 [true, true]).wellFormed = true ∧
    requestRange (.writeMultipleCoils 14 2 [true, true]) = some (.coils, 14, 2) ∧
    14 + 2 ≤ (blank.len .coils).toNat ∧
    requestRange (.readInputRegisters 3 2) = some (.input, 3, 2) ∧
    (blank.len .input).toNat < 3 + 2 := by decide

theorem witness_ExceptionChangesNoElement :
    goes (exec (.writeSingleCoil 16 true) blank) (fun t =>
      t.reply = some (.excResp 0x05 .illegalDataAddress)) = true ∧
    goes (exec (.unsupported 0x83) blank) (fun t =>
      t.reply = some (.excResp 0x83 .illegalFunction)) = true := by decide

/-- Rows of L2.1. -/
theorem witness_ValidatorIsExactBound :
    0xFFFF < (0xFFFF#16).toNat + (1#16).toNat ∧ valid 0xFFFF 0xFFFF 1 = false ∧
    valid 0xFFFF 0 0xFFFF = true ∧ valid 8 8 0 = true ∧ valid 8 9 0 = false ∧
    valid 16 15 1 = true ∧ valid 16 16 1 = false := by decide

/-- L2.6: nine true bits, read at the last bit and at a pad bit. -/
theorem witness_PackBitsPlacesEveryBit :
    (packBits (List.replicate 9 true))[1]? = some 0x01#8 ∧ (0x01#8).getLsbD 0 = true ∧
    (0x01#8).getLsbD 7 = false ∧ packBits [] = [] := by decide

/-- Into an empty slot and over a pending snapshot. -/
theorem witness_PublishReplacesPendingSnapshot :
    ({ blank with turns := [.producer], publishes := [sampleMap] } : State).admits sampleMap = true ∧
    ({ ready (.readCoils 0 0) with turns := [.producer], publishes := [sampleMap] } : State).slot ≠ none ∧
    (ready (.readCoils 0 0)).admits sampleMap = true := by decide

theorem witness_MisshapedPublishHasNoStep :
    blank.admits { sampleMap with holding := [1] } = false ∧
    blank.admits { sampleMap with coils := true :: sampleMap.coils } = false := by decide

theorem witness_InitTakesFirstSnapshotOrWaits :
    State.reset.phase = .awaitInit ∧ State.reset.turns = [] ∧ State.reset.slot = none ∧
    ({ State.reset with turns := [.block], slot := some sampleMap } : State).turns = .block :: [] ∧
    ({ State.reset with turns := [.initCall], slot := some sampleMap } : State).turns = .initCall :: [] ∧
    ({ State.reset with slot := some sampleMap } : State).slot = some sampleMap := by decide

theorem witness_SecondInitHasNoStep :
    ({ blank with turns := [.initCall] } : State).phase = .serving ∧
    ({ blank with turns := [.initCall] } : State).turns = .initCall :: [] := by decide

/-- A frame waits before init; the step that installs, and the one that does not. -/
theorem witness_NothingAnsweredBeforeInit :
    ({ State.reset with frames := [⟨.noFrame, 256⟩] } : State).phase = .awaitInit ∧
    goes (step { State.reset with slot := some sampleMap }) (fun t => t.phase = .serving) = true ∧
    goes (step State.reset) (fun t => t.phase = .awaitInit) = true := by decide

theorem witness_BootCompletesWithFirstPublish :
    (State.construct 0x11#8 16#16 8#16 8#16 4#16 none).admits sampleMap = true := by decide

/-- Too few values and too many. -/
theorem witness_MismatchedRecordIsNotTaken :
    (ready (.writeMultipleCoils 0 2 [true])).phase = .serving ∧
    (ready (.writeMultipleCoils 0 2 [true])).blockNext = true ∧ [true].length ≠ (2#16).toNat ∧
    (ready (.writeMultipleRegisters 0 0 [7])).blockNext = true ∧ [7#16].length ≠ (0#16).toNat := by decide

set_option maxRecDepth 20000 in
/-- P3 line 7, `11 07 4C 22`. -/
theorem witness_StepRunsDecodedRequest_bytes :
    decodeAdu [0x11, 0x07, 0x4C, 0x22] = .ok (some (0x11, .unsupported 0x07)) := by decide

theorem witness_StepRunsDecodedRequest :
    let s := ready (.writeMultipleRegisters 5 3 [7, 8, 9])
    s.phase = .serving ∧ s.seq = .idle ∧ s.blockNext = true ∧
    s.frames = ⟨.decoded s.slaveId (.writeMultipleRegisters 5 3 [7, 8, 9]), 4⟩ :: [] ∧
    (Instr.writeMultipleRegisters 5 3 [7, 8, 9]).wellFormed = true := by decide

theorem witness_NoRequestNoReply :
    let s : State := { blank with frames := [⟨.noFrame, 256⟩, ⟨.decodeError ⟨5⟩, 0⟩] }
    s.phase = .serving ∧ s.seq = .idle ∧ s.blockNext = true ∧
    s.frames = ⟨.noFrame, 256⟩ :: [⟨.decodeError ⟨5⟩, 0⟩] := by decide

/-- The broadcast address, for another slave and, with `SLAVE_ID = 0`, for this one. -/
theorem witness_FilterComparesTargetOnly :
    let s : State := { blank with frames := [⟨.decoded 0x00#8 (.readHoldingRegisters 0 1), 256⟩] }
    s.phase = .serving ∧ s.seq = .idle ∧ s.blockNext = true ∧
    (Instr.readHoldingRegisters 0 1).wellFormed = true ∧ 0x00#8 ≠ s.slaveId ∧
    0x00#8 = ({ s with slaveId := 0x00#8 } : State).slaveId := by decide

theorem witness_EncoderAnswerDecidesResultOnly :
    let s := ready (.writeSingleRegister 3 0x1234)
    s.phase = .serving ∧ s.seq = .idle ∧ s.blockNext = true ∧
    (Instr.writeSingleRegister 3 0x1234).wellFormed = true ∧
    s.frames = ⟨.decoded s.slaveId (.writeSingleRegister 3 0x1234), 4⟩ :: [] := by decide

theorem witness_WriteKeptWhenReplyLost :
    let s : State := { ready (.writeSingleRegister 7 1) with encRsp := [.encodeError ⟨9⟩] }
    s.Inv ∧ s.phase = .serving ∧ s.blockNext = true ∧
    s.frames = ⟨.decoded s.slaveId (.writeSingleRegister 7 1), 4⟩ :: [] ∧
    (7#16).toNat < s.lenH.toNat ∧ s.codec = .abstract ∧ s.encRsp = .encodeError ⟨9⟩ :: [] := by
  unfold State.Inv
  decide

/-- L2.4: seven bytes, into a capacity of seven and of six. -/
theorem witness_EncoderAnswersAdmissibly :
    (ready (.readCoils 0 0)).codec = .abstract ∧ (ready (.readCoils 0 0)).encRsp = .ok 4 :: [] ∧
    admissible 4 (.ok 4) = true ∧ admissible 4 (.ok 0) = false ∧ admissible 4 (.ok 5) = false ∧
    (presenting (.readCoils 0 0) 7 blank).codec = .informative ∧
    (Reply.wordsResp 0x03 [0]).encodable = true ∧ (Reply.wordsResp 0x03 [0]).aduLength ≤ 7 ∧
    6 < (Reply.wordsResp 0x03 [0]).aduLength := by decide

theorem witness_TransactionReturnsToIdle : (ready (.unsupported 0x07)).phase = .serving := by decide

theorem witness_AtMostOneReplyPerTransaction :
    silentFor blank.slaveId (.decoded 0x12#8 (.readCoils 0 1)) = true ∧
    silentFor blank.slaveId .noFrame = true ∧
    silentFor blank.slaveId (.decoded 0x11#8 (.readCoils 0 1)) = false := by decide

/-- A step that takes a frame and installs, from a state with the invariant. -/
theorem witness_InvariantKeptByEveryStep :
    (ready (.writeMultipleCoils 0 1 [true])).Inv ∧
    goes (step (ready (.writeMultipleCoils 0 1 [true]))) (fun t =>
      t.map.coils = true :: List.replicate 15 false) = true := by
  unfold State.Inv
  decide

/-- A step that publishes before init, from a state with the invariant. -/
theorem witness_BootInvariantKeptByEveryStep :
    ({ State.reset with turns := [.producer], publishes := [sampleMap] } : State).BootInv ∧
    goes (step { State.reset with turns := [.producer], publishes := [sampleMap] }) (fun t =>
      t.slot = some sampleMap && t.phase = .awaitInit) = true := by
  unfold State.BootInv
  decide

theorem witness_ConfigurationAndServingAreForever :
    (ready (.writeSingleCoil 0 true)).phase = .serving ∧
    goes (step (ready (.writeSingleCoil 0 true))) (fun t => t.slaveId = 0x11#8) = true := by decide

/-- Both cases: a write that installs nothing, and a poll that installs. -/
theorem witness_ReadOnlySpacesChangeOnlyBySnapshot :
    goes (step { ready (.writeSingleCoil 0 true) with slot := none }) (fun t =>
      t.map.discrete = sampleMap.discrete) = true ∧
    goes (step (ready (.writeSingleCoil 0 true))) (fun t =>
      t.map.discrete = List.replicate 8 false) = true := by decide

/-- A frame that is silent though it installs. -/
theorem witness_SilentFrameChangesNoLaterReply :
    silentFor (ready (.readCoils 0 1)).slaveId (.decodeError ⟨5⟩) = true ∧
    silentFor (ready (.readCoils 0 1)).slaveId (.decoded 0x00#8 (.readCoils 0 1)) = true := by decide

theorem witness_NextFrameSeesSnapshot :
    let s := ready (.readHoldingRegisters 0 8)
    s.Inv ∧ s.phase = .serving ∧ s.blockNext = true ∧ s.slot = some blank.map ∧
    s.frames = ⟨.decoded s.slaveId (.readHoldingRegisters 0 8), 4⟩ :: [] ∧
    (0#16).toNat + (8#16).toNat ≤ s.lenH.toNat := by
  unfold State.Inv
  decide

theorem witness_NextTransactionReadsWhatWasWritten :
    let s : State := { blank with frames := [⟨.decoded 0x11#8 (.writeMultipleRegisters 5 3 [7, 8, 9]), 0⟩,
      ⟨.decoded 0x11#8 (.readHoldingRegisters 5 3), 256⟩] }
    s.Inv ∧ s.phase = .serving ∧ s.turns = [] ∧ s.slot = none ∧ [7#16, 8#16, 9#16].length = (3#16).toNat ∧
    s.frames = ⟨.decoded s.slaveId (.writeMultipleRegisters 5 3 [7, 8, 9]), 0⟩ ::
      ⟨.decoded s.slaveId (.readHoldingRegisters 5 3), 256⟩ :: [] ∧
    (5#16).toNat + (3#16).toNat ≤ s.lenH.toNat := by
  unfold State.Inv
  decide

theorem witness_SecondPublishReplacesFirst :
    let s : State := { blank with turns := [.producer, .producer], publishes := [sampleMap, blank.map] }
    s.turns = .producer :: .producer :: [] ∧ s.publishes = sampleMap :: blank.map :: [] ∧
    s.admits sampleMap = true ∧ s.admits blank.map = true := by decide

set_option maxRecDepth 20000 in
/-- The largest lists whose byte count fits its byte, and the first that does not. -/
theorem witness_DecodeOfEncodeIsIdentity :
    (Instr.writeMultipleRegisters 0 127 (List.replicate 127 0)).wellFormed = true ∧
    (Instr.writeMultipleRegisters 0 127 (List.replicate 127 0)).encodable = true ∧
    (Instr.writeMultipleRegisters 0 128 []).encodable = false ∧
    (Instr.writeMultipleCoils 0 2040 (List.replicate 2040 true)).wellFormed = true ∧
    (Instr.writeMultipleCoils 0 2040 (List.replicate 2040 true)).encodable = true ∧
    (Instr.unsupported 0xFF).wellFormed = true ∧ (Instr.unsupported 0xFF).encodable = true := by
  refine ⟨by decide, by decide, by decide, ?_, by decide, by decide, by decide⟩
  exact beq_iff_eq.2 List.length_replicate

theorem witness_DecodeOfEncodeAduIsIdentity :
    (Instr.writeSingleCoil 0xFFFF true).wellFormed = true ∧
    (Instr.writeSingleCoil 0xFFFF true).encodable = true := by decide

theorem witness_DecodedRequestsAreAdmitted :
    decode [0x10, 0x00, 0x00, 0x00, 0x01, 0x02, 0x00, 0x07, 0xAA] =
      .ok (.writeMultipleRegisters 0 1 [7], [0xAA]) := by decide

theorem witness_WordsReplyRoundTrip :
    (Reply.wordsResp 0x03 (List.replicate 127 0)).encodable = true ∧
    (Reply.wordsResp 0x03 (List.replicate 128 0)).encodable = false := by
  simp [Reply.encodable]

end Sys2Proof.Tests
end

section
/-! SUPPORT. The state's rules (10_state.md): what every move keeps, and from it what every step keeps. -/

namespace Sys2Proof.Machine

/-- An outcome that goes on is one of the moves a step can be. -/
theorem moves_of_step {s t : State} (h : step s = .next t) : Moves s t := by
  obtain ⟨u, hu, hm⟩ := step_moves s
  rw [h] at hu
  cases hu
  exact hm

/-! ## The invariant (R24, R32, R33) -/

theorem State.admits_of_slotWf {s : State} {m : Snapshot} (hw : s.slotWf = true)
    (hs : s.slot = some m) : s.admits m = true := by
  rw [State.slotWf, hs] at hw
  exact hw

/-- The map a POLL leaves has the block's shape, whether or not a snapshot was pending (R142). -/
theorem State.admits_polledMap {s : State} (hmem : s.memoryWf = true) (hw : s.slotWf = true) :
    s.admits (s.slot.getD s.map) = true := by
  cases hs : s.slot with
  | none => exact hmem
  | some m => exact State.admits_of_slotWf hw hs

theorem Moves.keeps_inv {s t : State} (h : Moves s t) (hi : s.Inv) : t.Inv := by
  obtain ⟨hmem, hslot, hbetween⟩ := hi
  cases h with
  | pass => exact ⟨hmem, hslot, hbetween⟩
  | published m ts ps ha => exact ⟨hmem, ha, hbetween⟩
  | initialised m ts hp hs =>
    have hadmits : s.admits m = true := State.admits_of_slotWf hslot hs
    exact ⟨hadmits, rfl, hbetween⟩
  | transaction m new script draws ts f fs hp hq hf hm =>
    have hadmits : s.admits m = true :=
      State.admits_of_writeLeaves hm (State.admits_polledMap hmem hslot)
    exact ⟨hadmits, rfl, rfl⟩

/-- Settles O29, by cases on the move: an installed snapshot was admitted when it was published, a write
keeps every length, and every transaction ends IDLE with the transients cleared. -/
theorem invariantKeptByEveryStep : Obligations.InvariantKeptByEveryStep :=
  fun _ _ hi h => (moves_of_step h).keeps_inv hi

theorem State.construct_inv (id : Byte) (c d h i : Word) :
    (State.construct id c d h i none).Inv :=
  ⟨State.construct_memoryWf .., rfl, rfl⟩

/-- Settles O30: reset is one of the constructions. -/
theorem invariantHoldsAtReset : Obligations.InvariantHoldsAtReset :=
  ⟨State.construct_inv .., State.construct_inv⟩

/-! ## Before init (R37, R161, R284) -/

theorem State.construct_bootInv (id : Byte) (c d h i : Word) (slot : Option Snapshot) :
    (State.construct id c d h i slot).BootInv :=
  fun _ => ⟨rfl, rfl⟩

/-- A pass and a publish touch neither the map nor an outgoing port; `init` ends in SERVING, and a
transaction begins there. -/
theorem Moves.keeps_bootInv {s t : State} (h : Moves s t) (hb : s.BootInv) : t.BootInv := by
  cases h with
  | pass => exact hb
  | published => exact hb
  | initialised => exact fun hawait => nomatch hawait
  | transaction m new script draws ts f fs hp =>
    intro hawait
    exact nomatch hp.symm.trans hawait

/-- Settles O31, by cases on the move. -/
theorem bootInvariantKeptByEveryStep : Obligations.BootInvariantKeptByEveryStep :=
  ⟨State.construct_bootInv, fun _ _ hb h => (moves_of_step h).keeps_bootInv hb⟩

/-! ## Configuration and phase (R24, R27, R28, R281) -/

theorem Moves.keeps_configuration {s t : State} (h : Moves s t) :
    t.slaveId = s.slaveId ∧ t.lenC = s.lenC ∧ t.lenD = s.lenD ∧ t.lenH = s.lenH ∧ t.lenI = s.lenI ∧
      t.observer = s.observer ∧ t.codec = s.codec := by
  cases h <;> exact ⟨rfl, rfl, rfl, rfl, rfl, rfl, rfl⟩

/-- Only `init` writes the phase, and it writes SERVING (R145). -/
theorem Moves.keeps_serving {s t : State} (h : Moves s t) (hp : s.phase = .serving) :
    t.phase = .serving := by
  cases h with
  | pass => exact hp
  | published => exact hp
  | initialised => rfl
  | transaction => exact hp

/-- Settles O32, by cases on the move. -/
theorem configurationAndServingAreForever : Obligations.ConfigurationAndServingAreForever := by
  intro s t h
  have hmove := moves_of_step h
  obtain ⟨hid, hC, hD, hH, hI, hobs, hcodec⟩ := hmove.keeps_configuration
  exact ⟨hid, hC, hD, hH, hI, hobs, hcodec, hmove.keeps_serving⟩

/-! ## The spaces only the producer writes (R22, R26, R131) -/

/-- `init` installs whole; a transaction installs a pending snapshot and then at most writes as an
accessor does, which leaves DISCRETE and INPUT alone. -/
theorem Moves.readOnly_kept_or_installed {s t : State} (h : Moves s t) :
    (t.map.discrete = s.map.discrete ∧ t.map.input = s.map.input) ∨
      ∃ m, s.slot = some m ∧ t.slot = none ∧ t.map.discrete = m.discrete ∧ t.map.input = m.input := by
  cases h with
  | pass => exact .inl ⟨rfl, rfl⟩
  | published => exact .inl ⟨rfl, rfl⟩
  | initialised m ts hp hs => exact .inr ⟨m, hs, rfl, rfl, rfl⟩
  | transaction m new script draws ts f fs hp hq hf hm =>
    cases hs : s.slot with
    | none =>
      rw [hs] at hm
      exact .inl ⟨hm.discrete, hm.input⟩
    | some pending =>
      rw [hs] at hm
      exact .inr ⟨pending, rfl, rfl, hm.discrete, hm.input⟩

/-- Settles O33, by cases on the move. -/
theorem readOnlySpacesChangeOnlyBySnapshot : Obligations.ReadOnlySpacesChangeOnlyBySnapshot :=
  fun _ _ h => (moves_of_step h).readOnly_kept_or_installed

/-! ## Two publishes in a row (R35, R140, R287) -/

/-- On the producer's turn an admitted snapshot leaves its list and replaces what the slot held. -/
theorem step_publishes {s : State} {m : Snapshot} {rest : List Snapshot} {ts : List Turn}
    (ht : s.turns = .producer :: ts) (hp : s.publishes = m :: rest) (ha : s.admits m = true) :
    step s = .next { s with turns := ts, publishes := rest, slot := some m } := by
  have hmove : producerMove { s with turns := ts } =
      { s with turns := ts, publishes := rest, slot := some m } := by
    unfold producerMove
    rw [hp]
    exact if_pos ha
  rw [step, takeTurn, ht]
  exact congrArg _ hmove

/-- Settles O39: the same step twice, since a publish changes nothing that decides the next. -/
theorem secondPublishReplacesFirst : Obligations.SecondPublishReplacesFirst := by
  intro s m1 m2 rest ts ht hp h1 h2
  exact ⟨_, step_publishes ht hp h1, step_publishes rfl rfl h2⟩

end Sys2Proof.Machine
end

section
/-! SUPPORT. Memory ordering (20_memory.md): after its POLL a transaction does not look at the slot, and
a transaction reads the map the one before it left. -/

namespace Sys2Proof.Machine

/-! ## After its POLL a transaction does not look at the slot (R62, R255) -/

/-- Running `run` and then publishing `m` gives the state that publishing first gives. -/
def CommutesWithPublish (m : Snapshot) (run : State → Host.Outcome State Fault Refusal) (s : State) :
    Prop :=
  ∃ t, run s = .next t ∧ run (publish m s) = .next (publish m t)

section Publish

variable (m : Snapshot) (s : State)

theorem answerBits_commutesWithPublish (fc : Byte) (r : Except ExcKind (List Bool)) :
    CommutesWithPublish m (answerBits fc r) s := by
  cases r <;> exact ⟨_, rfl, rfl⟩

theorem answerWords_commutesWithPublish (fc : Byte) (r : Except ExcKind (List Word)) :
    CommutesWithPublish m (answerWords fc r) s := by
  cases r <;> exact ⟨_, rfl, rfl⟩

theorem answerWrite_commutesWithPublish (fc : Byte) (r : Except ExcKind RegMap) (sp : Space)
    (addr qty : Word) (ok : Reply) : CommutesWithPublish m (answerWrite fc r sp addr qty ok) s := by
  cases r <;> exact ⟨_, rfl, rfl⟩

/-- The accessors read the map and the lengths, which a publish leaves alone, so each arm answers from the
same accessor's value on both sides. -/
theorem exec_commutesWithPublish (i : Instr) : CommutesWithPublish m (exec i) s := by
  cases i with
  | readCoils addr qty => exact answerBits_commutesWithPublish m s _ (readCoils addr qty s)
  | readDiscreteInputs addr qty =>
    exact answerBits_commutesWithPublish m s _ (readDiscreteInputs addr qty s)
  | readHoldingRegisters addr qty =>
    exact answerWords_commutesWithPublish m s _ (readHoldingRegisters addr qty s)
  | readInputRegisters addr qty =>
    exact answerWords_commutesWithPublish m s _ (readInputRegisters addr qty s)
  | writeSingleCoil addr v =>
    exact answerWrite_commutesWithPublish m s _ (writeSingleCoil addr v s) _ _ _ _
  | writeSingleRegister addr v =>
    exact answerWrite_commutesWithPublish m s _ (writeSingleRegister addr v s) _ _ _ _
  | writeMultipleCoils addr qty vs =>
    exact answerWrite_commutesWithPublish m s _ (writeMultipleCoils addr vs s) _ _ _ _
  | writeMultipleRegisters addr qty vs =>
    exact answerWrite_commutesWithPublish m s _ (writeMultipleRegisters addr vs s) _ _ _ _
  | unsupported fc => exact ⟨_, rfl, rfl⟩

theorem encodeStep_publish (cap : Nat) : encodeStep cap (publish m s) = publish m (encodeStep cap s) := by
  cases hr : s.reply with
  | none =>
    simp only [encodeStep, hr, publish, State.setSlot_reply]
    rfl
  | some r =>
    rw [encodeStep_eq cap s r hr, encodeStep_eq cap (publish m s) r hr]
    rfl

theorem dispatchStep_commutesWithPublish (i : Instr) (cap : Nat) :
    CommutesWithPublish m (dispatchStep i cap) s := by
  obtain ⟨u, hu, hu'⟩ := exec_commutesWithPublish m (s.setSeq .dispatch) i
  have hexec : exec i ((publish m s).setSeq .dispatch) = .next (publish m u) := hu'
  refine ⟨encodeStep cap (u.setSeq .encode), ?_, ?_⟩
  · rw [dispatchStep, hu]
  · rw [dispatchStep, hexec, ← encodeStep_publish]
    rfl

theorem decodeStep_commutesWithPublish (f : Frame) : CommutesWithPublish m (decodeStep f) s := by
  obtain ⟨outcome, cap⟩ := f
  cases outcome with
  | noFrame => exact ⟨_, rfl, rfl⟩
  | decodeError e => exact ⟨_, rfl, rfl⟩
  | decoded t8 i =>
    by_cases hmine : t8 = s.slaveId
    · obtain ⟨t, ht, ht'⟩ :=
        dispatchStep_commutesWithPublish m ((s.setRequest t8 i).setSeq .filter) i cap
      exact ⟨t, (if_pos hmine).trans ht, (if_pos hmine).trans ht'⟩
    · exact ⟨_, if_neg hmine, if_neg hmine⟩

end Publish

/-- Settles O34: nothing from DECODE on reads or writes the slot. -/
theorem publishAfterPollCommutes : Obligations.PublishAfterPollCommutes :=
  fun f s m => decodeStep_commutesWithPublish m s f

/-! ## A step that takes a request for this block (R160, R165, R168) -/

/-- What `exec` runs on where a step takes the request `i` and leaves the frames `rest`: the polled
state, in DISPATCH. -/
def State.dispatching (i : Instr) (rest : List Frame) (s : State) : State :=
  { s with turns := s.turns.tail, frames := rest, map := s.slot.getD s.map, slot := none
           target := some s.slaveId, req := some i, seq := .dispatch }

/-- What ENCODE leaves of a state whose reply is `r`. -/
def State.replied (cap : Nat) (r : Reply) (u : State) : State :=
  { u.takeAnswer with
    outputs := u.outputs ++ [.encReq u.slaveId r cap, .result (resultOf (encoderAnswer r cap u))]
    seq := .idle, req := none, target := none, reply := none, result := none }

theorem step_of_exec {s u : State} {i : Instr} {cap : Nat} {rest : List Frame} {r : Reply}
    (hp : s.phase = .serving) (hq : s.seq = .idle) (hb : s.blockNext = true)
    (hf : s.frames = ⟨.decoded s.slaveId i, cap⟩ :: rest) (hw : i.wellFormed = true)
    (hu : exec i (s.dispatching i rest) = .next u) (hr : u.reply = some r) :
    step s = .next (u.replied cap r) := by
  rw [step_takes_frame s _ rest hp hq hb hf hw, processFrame_eq]
  exact (if_pos rfl).trans (dispatchStep_of_exec i cap _ u r hu hr)

/-! ## A register write and a register read within the space (R192, R213) -/

theorem exec_writeMultipleRegisters_of_le {s : State} {addr : Word} (qty : Word) {values : List Word}
    (h : addr.toNat + values.length ≤ s.lenH.toNat) :
    exec (.writeMultipleRegisters addr qty values) s = .next
      { s with map := { s.map with holding := memWrite s.map.holding addr.toNat values }
               reply := some (.multiResp 0x10#8 addr qty)
               outputs := s.outputs ++ observed s.observer (.writeApplied .holding addr qty) } := by
  have hok : writeMultipleRegisters addr values s =
      .ok { s.map with holding := memWrite s.map.holding addr.toNat values } :=
    if_pos ((valid_iff s.lenH addr.toNat values.length).2 h)
  rw [exec, execWriteMultipleRegisters, hok]
  rfl

theorem exec_readHoldingRegisters_of_le {s : State} {addr qty : Word}
    (h : addr.toNat + qty.toNat ≤ s.lenH.toNat) :
    exec (.readHoldingRegisters addr qty) s = .next
      { s with reply := some (.wordsResp 0x03#8 (memRead s.map.holding addr.toNat qty.toNat)) } := by
  have hok : readHoldingRegisters addr qty s = .ok (memRead s.map.holding addr.toNat qty.toNat) :=
    if_pos ((valid_iff s.lenH addr.toNat qty.toNat).2 h)
  rw [exec, execReadHoldingRegisters, hok]
  rfl

/-! ## The next transaction reads what was written (R61, R288) -/

theorem State.seq_idle_of_inv {s : State} (h : s.Inv) : s.seq = .idle := by
  obtain ⟨-, -, hbetween⟩ := h
  simp only [State.between, Bool.and_eq_true, beq_iff_eq] at hbetween
  obtain ⟨⟨⟨⟨hidle, -⟩, -⟩, -⟩, -⟩ := hbetween
  exact hidle

/-- A register write within H leaves the block ready for the next frame, the slot empty, and the values in
the polled map, whatever the encoder answers. -/
theorem step_writes_registers {s : State} {addr qty : Word} {values : List Word} {cap : Nat}
    {rest : List Frame} (hp : s.phase = .serving) (hq : s.seq = .idle) (hb : s.blockNext = true)
    (hf : s.frames = ⟨.decoded s.slaveId (.writeMultipleRegisters addr qty values), cap⟩ :: rest)
    (hlen : values.length = qty.toNat) (hin : addr.toNat + qty.toNat ≤ s.lenH.toNat) :
    ∃ t, step s = .next t ∧ t.phase = .serving ∧ t.seq = .idle ∧ t.turns = s.turns.tail ∧
      t.frames = rest ∧ t.slot = none ∧ t.slaveId = s.slaveId ∧ t.lenH = s.lenH ∧
      t.map.holding = memWrite (s.slot.getD s.map).holding addr.toNat values :=
  have hrange : addr.toNat + values.length ≤ s.lenH.toNat := hlen ▸ hin
  ⟨_, step_of_exec hp hq hb hf (beq_iff_eq.2 hlen) (exec_writeMultipleRegisters_of_le qty hrange) rfl,
    hp, rfl, rfl, rfl, rfl, rfl, rfl, rfl⟩

/-- A register read within H replies the words of the polled map, and leaves that map. -/
theorem step_reads_registers {s : State} {addr qty : Word} {cap : Nat} {rest : List Frame}
    (hp : s.phase = .serving) (hq : s.seq = .idle) (hb : s.blockNext = true)
    (hf : s.frames = ⟨.decoded s.slaveId (.readHoldingRegisters addr qty), cap⟩ :: rest)
    (hin : addr.toNat + qty.toNat ≤ s.lenH.toNat) :
    ∃ t r, step s = .next t ∧ t.frames = rest ∧ t.slot = none ∧ t.map = s.slot.getD s.map ∧
      t.outputs = s.outputs ++ [.encReq s.slaveId (.wordsResp 0x03#8
        (memRead (s.slot.getD s.map).holding addr.toNat qty.toNat)) cap, .result r] :=
  ⟨_, _, step_of_exec hp hq hb hf rfl (exec_readHoldingRegisters_of_le hin) rfl, rfl, rfl, rfl, rfl⟩

/-- Settles O38: the first step leaves the written map with an empty slot, so the second reads that map,
and a read of a range just written gives the values written. -/
theorem nextTransactionReadsWhatWasWritten : Obligations.NextTransactionReadsWhatWasWritten := by
  intro s addr qty values cap cap' rest hinv hp hturns hslot hlen hf hin
  have hnext : s.blockNext = true := by rw [State.blockNext, hturns]
  obtain ⟨t1, hstep1, hp1, hq1, hturns1, hf1, hslot1, hid1, hlenH1, hholding1⟩ :=
    step_writes_registers hp (State.seq_idle_of_inv hinv) hnext hf hlen hin
  rw [hslot, Option.getD_none] at hholding1
  rw [← hid1] at hf1
  rw [← hlenH1] at hin
  have hnext1 : t1.blockNext = true := by rw [State.blockNext, hturns1, hturns, List.tail_nil]
  obtain ⟨t2, r, hstep2, hf2, -, -, hout2⟩ := step_reads_registers hp1 hq1 hnext1 hf1 hin
  obtain ⟨hmem, -, -⟩ := hinv
  obtain ⟨-, -, hshape, -⟩ := (State.admits_iff s s.map).1 hmem
  have hread : memRead t1.map.holding addr.toNat qty.toNat = values := by
    rw [hholding1, ← hlen]
    exact memRead_memWrite _ _ _ (by rw [hshape, hlen, ← hlenH1]; exact hin)
  rw [hslot1, Option.getD_none, hread, hid1] at hout2
  exact ⟨t1, t2, r, hstep1, hstep2, hf2, hout2⟩

end Sys2Proof.Machine
end

section
/-! SUPPORT. The informative codec (30_encoding.md): packed bits, 16-bit fields, request PDUs and ADUs
decoded and encoded, and the lengths of replies. -/

namespace Sys2Proof

/-! ## Packed bits (R92) -/

section PlacedBits

variable (p : Nat → Prop) [DecidablePred p]

/-- The number whose bit `b` is set exactly where `b < n` and `p b`, as `packByte` writes it. -/
def placedBits (n : Nat) : Nat := ((List.range n).map fun b => if p b then 2 ^ b else 0).sum

theorem placedBits_succ (n : Nat) :
    placedBits p (n + 1) = 2 ^ n * (decide (p n)).toNat + placedBits p n := by
  have hterm : (if p n then 2 ^ n else 0) = 2 ^ n * (decide (p n)).toNat := by
    by_cases hp : p n <;> simp [hp]
  simp [placedBits, List.range_succ, hterm, Nat.add_comm]

theorem placedBits_lt (n : Nat) : placedBits p n < 2 ^ n := by
  induction n with
  | zero => exact Nat.one_pos
  | succ n ih =>
    have hbit : 2 ^ n * (decide (p n)).toNat ≤ 2 ^ n * 1 := Nat.mul_le_mul_left _ (Bool.toNat_le _)
    rw [placedBits_succ, Nat.pow_succ]
    omega

theorem placedBits_testBit {n b : Nat} (h : b < n) : (placedBits p n).testBit b = decide (p b) := by
  induction n with
  | zero => exact absurd h (Nat.not_lt_zero b)
  | succ n ih =>
    rw [placedBits_succ, Nat.testBit_two_pow_mul_add _ (placedBits_lt p n)]
    by_cases hb : b < n
    · rw [if_pos hb, ih hb]
    · obtain rfl : b = n := by omega
      rw [if_neg hb, Nat.sub_self, Nat.testBit_zero]
      by_cases hp : p b <;> simp [hp]

end PlacedBits

theorem packByte_eq_placedBits (bits : List Bool) (j : Nat) :
    packByte bits j = BitVec.ofNat 8 (placedBits (fun b => bits[8 * j + b]? = some true) 8) := rfl

theorem packByte_getLsbD (bits : List Bool) (j : Nat) {b : Nat} (h : b < 8) :
    (packByte bits j).getLsbD b = bits.getD (8 * j + b) false := by
  rw [packByte_eq_placedBits, BitVec.getLsbD_ofNat, placedBits_testBit _ h,
    List.getD_eq_getElem?_getD]
  cases bits[8 * j + b]? <;> simp [h]

theorem packBits_length (bits : List Bool) : (packBits bits).length = byteCount bits.length := by
  simp [packBits]

theorem packBits_getElem? (bits : List Bool) {j : Nat} (h : j < byteCount bits.length) :
    (packBits bits)[j]? = some (packByte bits j) := by
  simp [packBits, h]

/-- Settles O13: `byteCount` is the ceiling of the eighth, and every byte places its bits. -/
theorem packBitsPlacesEveryBit : Obligations.PackBitsPlacesEveryBit := by
  intro bits
  rw [packBits_length, byteCount]
  refine ⟨⟨by omega, fun q hq => by omega⟩, fun j b hb byte hbyte => ?_⟩
  have hj : j < byteCount bits.length := by
    rw [← packBits_length]
    exact (List.getElem?_eq_some_iff.1 hbyte).1
  rw [packBits_getElem? bits hj] at hbyte
  obtain rfl := Option.some.inj hbyte
  exact packByte_getLsbD bits j hb

theorem unpackBits_length (n : Nat) (bytes : List Byte) : (unpackBits n bytes).length = n := by
  simp [unpackBits]

/-- Bit `k` stands in byte `k / 8` at place `k % 8`. -/
theorem unpackBits_packBits (bits : List Bool) : unpackBits bits.length (packBits bits) = bits := by
  apply List.ext_getElem (unpackBits_length _ _)
  intro k _ hk
  have hbyte : k / 8 < byteCount bits.length := by
    rw [byteCount]
    omega
  simp only [unpackBits, List.getElem_map, List.getElem_range]
  rw [List.getD_eq_getElem?_getD, packBits_getElem? bits hbyte, Option.getD_some,
    packByte_getLsbD bits _ (Nat.mod_lt k (by decide)), Nat.div_add_mod,
    List.getD_eq_getElem _ _ hk]

/-! ## 16-bit fields (R51, R97) -/

theorem bytesWord_of_wordBytes (w : Word) : bytesWord (w.extractLsb' 8 8) (w.extractLsb' 0 8) = w :=
  BitVec.extractLsb'_append_extractLsb'

@[simp] theorem wordBytes_length (w : Word) : (wordBytes w).length = 2 := rfl

@[simp] theorem wordsBytes_length (ws : List Word) : (wordsBytes ws).length = 2 * ws.length := by
  induction ws with
  | nil => rfl
  | cons w ws ih =>
    rw [wordsBytes, List.length_append, ih, wordBytes_length, List.length_cons]
    omega

theorem bytesWords_wordsBytes (ws : List Word) : bytesWords (wordsBytes ws) = ws := by
  induction ws with
  | nil => rfl
  | cons w ws ih => exact congrArg₂ List.cons (bytesWord_of_wordBytes w) ih

theorem bytesWords_length (n : Nat) (bytes : List Byte) (h : bytes.length = 2 * n) :
    (bytesWords bytes).length = n := by
  induction n generalizing bytes with
  | zero =>
    obtain rfl := List.length_eq_zero_iff.1 h
    rfl
  | succ n ih =>
    match bytes, h with
    | hi :: lo :: rest, h =>
      have hrest : rest.length = 2 * n := by
        simp only [List.length_cons] at h
        omega
      exact congrArg (· + 1) (ih rest hrest)

/-! ## Each request format reads back what it wrote (R97) -/

theorem decodeHeader_wordBytes (addr w : Word) (rest : List Byte) :
    decodeHeader (wordBytes addr ++ wordBytes w ++ rest) = .ok (addr, w, rest) := by
  change Except.ok (bytesWord _ _, bytesWord _ _, rest) = _
  rw [bytesWord_of_wordBytes, bytesWord_of_wordBytes]

theorem decodePair_wordBytes (make : Word → Word → Instr) (addr w : Word) (rest : List Byte) :
    decodePair make (wordBytes addr ++ wordBytes w ++ rest) = .ok (make addr w, rest) := by
  rw [decodePair, decodeHeader_wordBytes]

theorem decodeCoilValue_coilWord (v : Bool) : decodeCoilValue (coilWord v) = .ok v := by
  cases v <;> rfl

theorem decodeSingleCoil_wordBytes (addr : Word) (v : Bool) (rest : List Byte) :
    decodeSingleCoil (wordBytes addr ++ wordBytes (coilWord v) ++ rest) =
      .ok (.writeSingleCoil addr v, rest) := by
  rw [decodeSingleCoil, decodeHeader_wordBytes]
  simp only [decodeCoilValue_coilWord]

/-- The byte count survives its one byte, so the data are found whole. -/
theorem decodeMultiple_wordBytes {want : Nat → Nat} (make : Word → Word → List Byte → Instr)
    (addr qty : Word) {data : List Byte} (rest : List Byte) (hdata : data.length = want qty.toNat)
    (hfits : want qty.toNat ≤ 255) :
    decodeMultiple want make
        (wordBytes addr ++ wordBytes qty ++ BitVec.ofNat 8 (want qty.toNat) :: data ++ rest) =
      .ok (make addr qty data, rest) := by
  have hcount : (BitVec.ofNat 8 (want qty.toNat)).toNat = want qty.toNat :=
    Nat.mod_eq_of_lt (by omega)
  rw [List.append_assoc, decodeMultiple, decodeHeader_wordBytes]
  simp only [List.cons_append, hcount]
  rw [if_pos trivial, if_pos (by rw [List.length_append]; omega), List.take_left' hdata,
    List.drop_left' hdata]

/-! ## The function code selects the format (R84, R87) -/

theorem unsupported_wellFormed_iff (fc : Byte) :
    (Instr.unsupported fc).wellFormed = true ↔
      fc ≠ 0x01#8 ∧ fc ≠ 0x02#8 ∧ fc ≠ 0x03#8 ∧ fc ≠ 0x04#8 ∧ fc ≠ 0x05#8 ∧ fc ≠ 0x06#8 ∧
        fc ≠ 0x0F#8 ∧ fc ≠ 0x10#8 := by
  simp [Instr.wellFormed, supportedCodes]

/-- A byte is none of the eight function codes, or one of them. -/
theorem functionCode_cases (fc : Byte) :
    (Instr.unsupported fc).wellFormed = true ∨ fc = 0x01#8 ∨ fc = 0x02#8 ∨ fc = 0x03#8 ∨
      fc = 0x04#8 ∨ fc = 0x05#8 ∨ fc = 0x06#8 ∨ fc = 0x0F#8 ∨ fc = 0x10#8 := by
  rw [unsupported_wellFormed_iff]
  tauto

theorem decode_unsupported {fc : Byte} (body : List Byte)
    (h : (Instr.unsupported fc).wellFormed = true) :
    decode (fc :: body) = .ok (.unsupported fc, body) := by
  rw [unsupported_wellFormed_iff] at h
  simp only [ne_eq, ← BitVec.toNat_inj] at h
  obtain ⟨h1, h2, h3, h4, h5, h6, hF, h10⟩ := h
  rw [decode]
  split
  case h_9 => rfl
  all_goals contradiction

/-- The record `decode` makes of the fields of function code 0x0F (R97). -/
def coilsRecord (addr qty : Word) (data : List Byte) : Instr :=
  .writeMultipleCoils addr qty (unpackBits qty.toNat data)

/-- The record `decode` makes of the fields of function code 0x10 (R97). -/
def registersRecord (addr qty : Word) (data : List Byte) : Instr :=
  .writeMultipleRegisters addr qty (bytesWords data)

theorem decode_multipleCoils (body : List Byte) :
    decode (0x0F#8 :: body) = decodeMultiple byteCount coilsRecord body := rfl

theorem decode_multipleRegisters (body : List Byte) :
    decode (0x10#8 :: body) = decodeMultiple (fun n => 2 * n) registersRecord body := rfl

theorem coilsRecord_packBits (addr : Word) {qty : Word} {values : List Bool}
    (h : values.length = qty.toNat) :
    coilsRecord addr qty (packBits values) = .writeMultipleCoils addr qty values := by
  rw [coilsRecord, ← h, unpackBits_packBits]

theorem registersRecord_wordsBytes (addr qty : Word) (values : List Word) :
    registersRecord addr qty (wordsBytes values) = .writeMultipleRegisters addr qty values := by
  rw [registersRecord, bytesWords_wordsBytes]

/-- Settles O42, by cases on the record: each format reads back what it wrote. -/
theorem decodeOfEncodeIsIdentity : Obligations.DecodeOfEncodeIsIdentity := by
  intro i rest hwf hfits
  cases i with
  | readCoils addr qty => exact decodePair_wordBytes .readCoils addr qty rest
  | readDiscreteInputs addr qty => exact decodePair_wordBytes .readDiscreteInputs addr qty rest
  | readHoldingRegisters addr qty => exact decodePair_wordBytes .readHoldingRegisters addr qty rest
  | readInputRegisters addr qty => exact decodePair_wordBytes .readInputRegisters addr qty rest
  | writeSingleCoil addr v => exact decodeSingleCoil_wordBytes addr v rest
  | writeSingleRegister addr v => exact decodePair_wordBytes .writeSingleRegister addr v rest
  | writeMultipleCoils addr qty values =>
    have hlen : values.length = qty.toNat := beq_iff_eq.1 hwf
    have hcount : (packBits values).length = byteCount qty.toNat := by rw [packBits_length, hlen]
    have hread := decodeMultiple_wordBytes coilsRecord addr qty rest hcount (of_decide_eq_true hfits)
    rw [coilsRecord_packBits addr hlen] at hread
    exact hread
  | writeMultipleRegisters addr qty values =>
    have hlen : values.length = qty.toNat := beq_iff_eq.1 hwf
    have hcount : (wordsBytes values).length = (fun n => 2 * n) qty.toNat := by
      rw [wordsBytes_length, hlen]
    have hread := decodeMultiple_wordBytes registersRecord addr qty rest hcount
      (of_decide_eq_true hfits)
    rw [registersRecord_wordsBytes] at hread
    exact hread
  | unsupported fc => exact decode_unsupported rest hwf

/-! ## ADUs (R99) -/

@[simp] theorem crcBytes_length (bytes : List Byte) : (crcBytes bytes).length = 2 := rfl

theorem encodeAdu_length (slave : Byte) (pdu : List Byte) :
    (encodeAdu slave pdu).length = 1 + pdu.length + 2 := by
  rw [encodeAdu, List.length_append, crcBytes_length, List.length_cons, Nat.add_comm 1]

/-- Two bytes before its end an ADU splits into what the CRC is over and the CRC. -/
theorem encodeAdu_split (slave : Byte) (pdu : List Byte) :
    (encodeAdu slave pdu).take ((encodeAdu slave pdu).length - 2) = slave :: pdu ∧
      (encodeAdu slave pdu).drop ((encodeAdu slave pdu).length - 2) = crcBytes (slave :: pdu) := by
  have hlen : (slave :: pdu).length = (encodeAdu slave pdu).length - 2 := by
    rw [encodeAdu_length, List.length_cons]
    omega
  exact ⟨List.take_left' hlen, List.drop_left' hlen⟩

theorem decodeAdu_encodeAdu (slave : Byte) {pdu : List Byte} {i : Instr}
    (h : decode pdu = .ok (i, [])) : decodeAdu (encodeAdu slave pdu) = .ok (some (slave, i)) := by
  have hpdu : 0 < pdu.length := List.length_pos_iff.2 (by rintro rfl; exact nomatch h)
  have hlong : ¬ (encodeAdu slave pdu).length < 4 := by
    rw [encodeAdu_length]
    omega
  obtain ⟨htake, hdrop⟩ := encodeAdu_split slave pdu
  have hcons : encodeAdu slave pdu = slave :: (pdu ++ crcBytes (slave :: pdu)) := rfl
  rw [hcons] at hlong htake hdrop ⊢
  rw [decodeAdu, if_neg hlong, hdrop, htake, if_pos rfl, List.drop_succ_cons, List.drop_zero, h]
  cases i <;> rfl

/-- Settles O43: the PDU decodes with no byte left over, and the CRC is over slave and PDU. -/
theorem decodeOfEncodeAduIsIdentity : Obligations.DecodeOfEncodeAduIsIdentity := by
  intro slave i hwf hfits
  have hdecode := decodeOfEncodeIsIdentity i [] hwf hfits
  rw [List.append_nil] at hdecode
  exact decodeAdu_encodeAdu slave hdecode

/-! ## What the decoder accepts (R82, R86) -/

/-- A record the port admits, tagged with the function code `fc`. -/
def Instr.AdmittedAs (fc : Byte) (i : Instr) : Prop := i.wellFormed = true ∧ i.functionCode = fc

section Accepted

variable {fc : Byte} {body rest : List Byte} {i : Instr}

theorem decodePair_accepts {make : Word → Word → Instr} (h : decodePair make body = .ok (i, rest))
    (hmake : ∀ addr w, (make addr w).AdmittedAs fc) : i.AdmittedAs fc := by
  unfold decodePair at h
  split at h
  · exact nomatch h
  · cases h
    exact hmake _ _

theorem decodeSingleCoil_accepts (h : decodeSingleCoil body = .ok (i, rest))
    (hmake : ∀ addr v, (Instr.writeSingleCoil addr v).AdmittedAs fc) : i.AdmittedAs fc := by
  unfold decodeSingleCoil at h
  split at h
  · exact nomatch h
  · split at h
    · exact nomatch h
    · cases h
      exact hmake _ _

/-- The data of an accepted record are as many as its quantity wants. -/
theorem decodeMultiple_accepts {want : Nat → Nat} {make : Word → Word → List Byte → Instr}
    (h : decodeMultiple want make body = .ok (i, rest))
    (hmake : ∀ addr qty data, data.length = want qty.toNat → (make addr qty data).AdmittedAs fc) :
    i.AdmittedAs fc := by
  unfold decodeMultiple at h
  split at h
  · exact nomatch h
  · exact nomatch h
  · split at h
    next hcount =>
      split at h
      next hdata =>
        cases h
        exact hmake _ _ _ (by rw [List.length_take_of_le hdata, hcount])
      next => exact nomatch h
    next => exact nomatch h

end Accepted

/-- By cases on the function code, which selects the format. -/
theorem decode_accepts {fc : Byte} {body rest : List Byte} {i : Instr}
    (h : decode (fc :: body) = .ok (i, rest)) : i.AdmittedAs fc := by
  rcases functionCode_cases fc with hfc | rfl | rfl | rfl | rfl | rfl | rfl | rfl | rfl
  · rw [decode_unsupported body hfc] at h
    cases h
    exact ⟨hfc, rfl⟩
  · exact decodePair_accepts h fun _ _ => ⟨rfl, rfl⟩
  · exact decodePair_accepts h fun _ _ => ⟨rfl, rfl⟩
  · exact decodePair_accepts h fun _ _ => ⟨rfl, rfl⟩
  · exact decodePair_accepts h fun _ _ => ⟨rfl, rfl⟩
  · exact decodeSingleCoil_accepts h fun _ _ => ⟨rfl, rfl⟩
  · exact decodePair_accepts h fun _ _ => ⟨rfl, rfl⟩
  · rw [decode_multipleCoils] at h
    exact decodeMultiple_accepts h fun _ qty data _ =>
      ⟨beq_iff_eq.2 (unpackBits_length qty.toNat data), rfl⟩
  · rw [decode_multipleRegisters] at h
    exact decodeMultiple_accepts h fun _ qty data hdata =>
      ⟨beq_iff_eq.2 (bytesWords_length qty.toNat data hdata), rfl⟩

/-- Settles O44: no record comes of no bytes, and `decode_accepts` covers a first byte. -/
theorem decodedRequestsAreAdmitted : Obligations.DecodedRequestsAreAdmitted := by
  intro bytes i rest h
  cases bytes with
  | nil => exact nomatch h
  | cons fc body =>
    obtain ⟨hwf, hcode⟩ := decode_accepts h
    exact ⟨hwf, congrArg some hcode.symm⟩

/-- Settles O45: an accepted `Unsupported` is an admitted one, which carries none of the eight codes. -/
theorem otherCodesDecodeToUnsupported : Obligations.OtherCodesDecodeToUnsupported := by
  intro fc body
  rw [← unsupported_wellFormed_iff]
  exact ⟨fun h => (decode_accepts h).1, decode_unsupported body⟩

/-- Settles O46, word by word. -/
theorem writtenOutWordsDecode : Obligations.WrittenOutWordsDecode :=
  ⟨by decide, by decide, by decide, by decide, by decide, by decide, by decide, by decide, by decide⟩

/-! ## Replies (R98, R99) -/

theorem Machine.encodeReply_length (r : Machine.Reply) :
    (Machine.encodeReply r).length = r.pduLength := by
  cases r with
  | bitsResp fc bits data => exact Nat.add_comm data.length 2
  | wordsResp fc words =>
    simp only [Machine.encodeReply, Machine.Reply.pduLength, List.length_cons, wordsBytes_length]
    omega
  | echoCoilResp addr v => rfl
  | echoRegResp addr v => rfl
  | multiResp fc addr qty => rfl
  | excResp fc kind => rfl

/-- Settles O47: the slave before the PDU and two bytes of CRC after it. -/
theorem replyAduHasItsLength : Obligations.ReplyAduHasItsLength := by
  intro slave r
  rw [encodeAdu_length, Machine.encodeReply_length, Machine.Reply.aduLength]

end Sys2Proof
end

section
/-! SUPPORT. The block's side of the encoding rules: a record whose value list and quantity differ is not
taken (R86), and the observer is an output only (R95). -/

namespace Sys2Proof.Machine

/-! ## A record the port does not admit (R82, R86) -/

theorem blockMove_of_not_admitted {s : State} {f : Frame} {rest : List Frame}
    (hp : s.phase = .serving) (hf : s.frames = f :: rest) (ha : f.outcome.admitted = false) :
    blockMove s = .next s := by
  simp [blockMove, hp, hf, ha]

/-- Settles O19: either mismatch makes the record one the port does not admit. -/
theorem mismatchedRecordIsNotTaken : Obligations.MismatchedRecordIsNotTaken := by
  intro s t8 i cap rest hp hb hf hmismatch
  have hwf : i.wellFormed = false := by
    rcases hmismatch with ⟨addr, qty, vs, rfl, hne⟩ | ⟨addr, qty, vs, rfl, hne⟩
    · exact beq_eq_false_iff_ne.2 hne
    · exact beq_eq_false_iff_ne.2 hne
  rw [step_of_blockNext s hb]
  exact blockMove_of_not_admitted hp hf hwf

/-! ## The observer is an output only (R57, R95, R262) -/

theorem unobserved_append (xs ys : List Output) :
    unobserved (xs ++ ys) = unobserved xs ++ unobserved ys :=
  List.filter_append ..

theorem unobserved_observed (o : Bool) (ev : Event) : unobserved (observed o ev) = [] := by
  cases o <;> rfl

section Outputs

variable {outs outs' : List Output} (h : unobserved outs = unobserved outs')
include h

theorem unobserved_append_right (new : List Output) :
    unobserved (outs ++ new) = unobserved (outs' ++ new) := by
  rw [unobserved_append, unobserved_append, h]

/-- The same event, sent to one observer or to none. -/
theorem unobserved_append_observed (o o' : Bool) (ev : Event) :
    unobserved (outs ++ observed o ev) = unobserved (outs' ++ observed o' ev) := by
  rw [unobserved_append, unobserved_append, unobserved_observed, unobserved_observed, h]

end Outputs

/-- `s` with the observer `o`, and `outs` sent so far. -/
def State.withObserver (o : Bool) (outs : List Output) (s : State) : State :=
  { s with observer := o, outputs := outs }

/-- From a state that differs from `s` in the observer and its events alone, `run` goes on to one that
differs from where it goes from `s` in these alone. -/
def IgnoresObserver (o : Bool) (run : State → Host.Outcome State Fault Refusal) (s : State) : Prop :=
  ∀ outs, unobserved outs = unobserved s.outputs → ∃ t outs', run s = .next t ∧
    run (s.withObserver o outs) = .next (t.withObserver o outs') ∧
    unobserved outs' = unobserved t.outputs

theorem encodeStep_of_none (cap : Nat) (s : State) (h : s.reply = none) :
    encodeStep cap s = finish (.ok false 0) s := by
  rw [encodeStep, h]

section Observer

variable (o : Bool) (s : State)

theorem raiseException_ignoresObserver (fc : Byte) (kind : ExcKind) :
    IgnoresObserver o (fun s => .next (raiseException fc kind s)) s :=
  fun _ h => ⟨_, _, rfl, rfl, unobserved_append_observed h _ _ _⟩

theorem answerBits_ignoresObserver (fc : Byte) (r : Except ExcKind (List Bool)) :
    IgnoresObserver o (answerBits fc r) s := by
  cases r with
  | error kind => exact raiseException_ignoresObserver o s fc kind
  | ok bits => exact fun outs h => ⟨_, outs, rfl, rfl, h⟩

theorem answerWords_ignoresObserver (fc : Byte) (r : Except ExcKind (List Word)) :
    IgnoresObserver o (answerWords fc r) s := by
  cases r with
  | error kind => exact raiseException_ignoresObserver o s fc kind
  | ok words => exact fun outs h => ⟨_, outs, rfl, rfl, h⟩

theorem answerWrite_ignoresObserver (fc : Byte) (r : Except ExcKind RegMap) (sp : Space)
    (addr qty : Word) (ok : Reply) : IgnoresObserver o (answerWrite fc r sp addr qty ok) s := by
  cases r with
  | error kind => exact raiseException_ignoresObserver o s fc kind
  | ok m => exact fun outs h => ⟨_, _, rfl, rfl, unobserved_append_observed h _ _ _⟩

/-- The accessors read the map and the lengths, so each arm answers from the same accessor's value on both
sides. -/
theorem exec_ignoresObserver (i : Instr) : IgnoresObserver o (exec i) s := by
  cases i with
  | readCoils addr qty => exact answerBits_ignoresObserver o s _ (readCoils addr qty s)
  | readDiscreteInputs addr qty =>
    exact answerBits_ignoresObserver o s _ (readDiscreteInputs addr qty s)
  | readHoldingRegisters addr qty =>
    exact answerWords_ignoresObserver o s _ (readHoldingRegisters addr qty s)
  | readInputRegisters addr qty =>
    exact answerWords_ignoresObserver o s _ (readInputRegisters addr qty s)
  | writeSingleCoil addr v =>
    exact answerWrite_ignoresObserver o s _ (writeSingleCoil addr v s) _ _ _ _
  | writeSingleRegister addr v =>
    exact answerWrite_ignoresObserver o s _ (writeSingleRegister addr v s) _ _ _ _
  | writeMultipleCoils addr qty vs =>
    exact answerWrite_ignoresObserver o s _ (writeMultipleCoils addr vs s) _ _ _ _
  | writeMultipleRegisters addr qty vs =>
    exact answerWrite_ignoresObserver o s _ (writeMultipleRegisters addr vs s) _ _ _ _
  | unsupported fc => exact raiseException_ignoresObserver o s fc .illegalFunction

theorem finish_ignoresObserver (r : FrameResult) :
    IgnoresObserver o (fun s => .next (finish r s)) s :=
  fun _ h => ⟨_, _, rfl, rfl, unobserved_append_right h _⟩

theorem encodeStep_ignoresObserver (cap : Nat) :
    IgnoresObserver o (fun s => .next (encodeStep cap s)) s := by
  intro outs h
  cases hr : s.reply with
  | none =>
    simp only [encodeStep_of_none cap s hr, encodeStep_of_none cap (s.withObserver o outs) hr]
    exact finish_ignoresObserver o s (.ok false 0) outs h
  | some r =>
    simp only [encodeStep_eq cap s r hr, encodeStep_eq cap (s.withObserver o outs) r hr]
    exact ⟨_, _, rfl, rfl, unobserved_append_right h _⟩

theorem dispatchStep_ignoresObserver (i : Instr) (cap : Nat) :
    IgnoresObserver o (dispatchStep i cap) s := by
  intro outs h
  obtain ⟨u, outs1, hu, hu', h1⟩ := exec_ignoresObserver o (s.setSeq .dispatch) i outs h
  obtain ⟨t, outs2, ht, ht', h2⟩ := encodeStep_ignoresObserver o (u.setSeq .encode) cap outs1 h1
  have hexec : exec i ((s.withObserver o outs).setSeq .dispatch) = .next (u.withObserver o outs1) := hu'
  exact ⟨t, outs2, by rw [dispatchStep, hu]; exact ht, by rw [dispatchStep, hexec]; exact ht', h2⟩

theorem decodeStep_ignoresObserver (f : Frame) : IgnoresObserver o (decodeStep f) s := by
  obtain ⟨outcome, cap⟩ := f
  cases outcome with
  | noFrame => exact finish_ignoresObserver o s _
  | decodeError e =>
    exact fun outs h => ⟨_, _, rfl, rfl,
      unobserved_append_right (unobserved_append_observed h _ _ _) _⟩
  | decoded t8 i =>
    intro outs h
    by_cases hmine : t8 = s.slaveId
    · obtain ⟨t, outs', ht, ht', h'⟩ :=
        dispatchStep_ignoresObserver o ((s.setRequest t8 i).setSeq .filter) i cap outs h
      exact ⟨t, outs', (if_pos hmine).trans ht, (if_pos hmine).trans ht', h'⟩
    · exact ⟨_, _, if_neg hmine, if_neg hmine, unobserved_append_right h _⟩

theorem processFrame_ignoresObserver (f : Frame) : IgnoresObserver o (processFrame f) s := by
  intro outs h
  rw [processFrame_eq, processFrame_eq]
  exact decodeStep_ignoresObserver o
    { s with map := s.slot.getD s.map, slot := none, seq := .decode } f outs h

end Observer

/-- Settles O36: before either run the outputs are the same. -/
theorem observerChangesNothing : Obligations.ObserverChangesNothing := by
  intro f s o
  obtain ⟨t, outs, ht, ht', h⟩ := processFrame_ignoresObserver o s f s.outputs rfl
  exact ⟨t, t.withObserver o outs, ht, ht', rfl, h⟩

end Sys2Proof.Machine
end

section
/-! SUPPORT. The register map (40_register_map.md): the validator is the exact bound `valid_iff` says,
at an overflowing sum and for one element (rules R120, R122). -/

namespace Sys2Proof.Machine

/-- No length register holds more than 0xFFFF (R7), so a sum above it is past every length. -/
theorem valid_eq_false_of_overflow (len : Word) {a n : Nat} (h : 0xFFFF < a + n) :
    valid len a n = false := by
  have hlen : len.toNat < 0x10000 := len.isLt
  exact (valid_eq_false_iff len a n).2 (by omega)

theorem valid_one_iff (len : Word) (a : Nat) : valid len a 1 = true ↔ a < len.toNat :=
  (valid_iff len a 1).trans Nat.add_one_le_iff

/-- Settles O12: an overflowing sum is past every length, the rest is the exact bound. -/
theorem validatorIsExactBound : Obligations.ValidatorIsExactBound :=
  fun len a n =>
    ⟨valid_eq_false_of_overflow len, valid_iff len a.toNat n.toNat, valid_one_iff len a.toNat⟩

end Sys2Proof.Machine
end

section
/-! SUPPORT. The Data Synchronizer slot (41_synchronizer.md): a publish puts a snapshot in the slot, the
first of `init` and a POLL takes it, and what the slot and the map hold at construction. -/

namespace Sys2Proof.Machine

/-! ## The producer's turn (R140, R141) -/

/-- Settles O14: `step_publishes` asks nothing of what the slot holds. -/
theorem publishReplacesPendingSnapshot : Obligations.PublishReplacesPendingSnapshot :=
  fun _ _ _ _ ht hp ha => step_publishes ht hp ha

theorem producerMove_of_not_admitted {s : State} {m : Snapshot} {rest : List Snapshot}
    (hp : s.publishes = m :: rest) (ha : s.admits m = false) : producerMove s = s := by
  simp [producerMove, hp, ha]

theorem step_of_producerTurn {s : State} {ts : List Turn} (ht : s.turns = .producer :: ts) :
    step s = .next (producerMove { s with turns := ts }) := by
  rw [step, takeTurn, ht]

/-- Settles O15: the producer's move on a snapshot of another shape is the identity. -/
theorem misshapedPublishHasNoStep : Obligations.MisshapedPublishHasNoStep := by
  intro s m rest ts ht hp ha
  rw [step_of_producerTurn ht]
  exact congrArg _ (producerMove_of_not_admitted hp ha)

/-! ## init (R144, R145) -/

theorem initBlock_of_some {s : State} {m : Snapshot} (hp : s.phase = .awaitInit)
    (hs : s.slot = some m) :
    initBlock s = { s with map := m, slot := none, phase := .serving } := by
  rw [initBlock, hp, hs]
  rfl

theorem initBlock_of_none {s : State} (hp : s.phase = .awaitInit) (hs : s.slot = none) :
    initBlock s = s := by
  rw [initBlock, hp, hs]

theorem initBlock_of_serving {s : State} (hp : s.phase = .serving) : initBlock s = s := by
  rw [initBlock, hp]

theorem step_of_initCall {s : State} {ts : List Turn} (ht : s.turns = .initCall :: ts) :
    step s = .next (initBlock { s with turns := ts }) := by
  rw [step, takeTurn, ht]

theorem blockMove_of_awaitInit {s : State} (hp : s.phase = .awaitInit) :
    blockMove s = .next (initBlock s) := by
  rw [blockMove, hp]

/-- While AWAIT_INIT the block's own move is `init` too (R145, R280; log 22), so every turn but the
producer's runs it. -/
theorem step_of_awaitInit {s : State} (hp : s.phase = .awaitInit)
    (ht : s.turns = [] ∨ ∃ ts, s.turns = .block :: ts ∨ s.turns = .initCall :: ts) :
    step s = .next (initBlock { s with turns := s.turns.tail }) := by
  have own (hb : s.blockNext = true) : step s = .next (initBlock { s with turns := s.turns.tail }) :=
    (step_of_blockNext s hb).trans (blockMove_of_awaitInit hp)
  rcases ht with ht | ⟨ts, ht | ht⟩
  · exact own (by rw [State.blockNext, ht])
  · exact own (by rw [State.blockNext, ht])
  · rw [step_of_initCall ht, ht, List.tail_cons]

/-- Settles O16: the step is `init`, which reads the slot. -/
theorem initTakesFirstSnapshotOrWaits : Obligations.InitTakesFirstSnapshotOrWaits := by
  intro s hp ht
  rw [step_of_awaitInit hp ht]
  exact ⟨fun m hs => congrArg _ (initBlock_of_some hp hs),
    fun hs => congrArg _ (initBlock_of_none hp hs)⟩

/-- Settles O17: `init` while SERVING is the identity. -/
theorem secondInitHasNoStep : Obligations.SecondInitHasNoStep := by
  intro s ts hp ht
  rw [step_of_initCall ht]
  exact congrArg _ (initBlock_of_serving hp)

/-! ## The next frame after a delivery (R142, R143, R286) -/

/-- Settles O37: the POLL makes the pending snapshot the map, and its shape, which the invariant gives,
puts the whole range inside it. -/
theorem nextFrameSeesSnapshot : Obligations.NextFrameSeesSnapshot := by
  intro s m addr qty cap rest hinv hp hb hs hf hin
  obtain ⟨t, r, hstep, -, hslot, hmap, hout⟩ :=
    step_reads_registers hp (State.seq_idle_of_inv hinv) hb hf hin
  rw [hs, Option.getD_some] at hmap hout
  obtain ⟨-, hpending, -⟩ := hinv
  obtain ⟨-, -, hlen, -⟩ := (State.admits_iff s m).1 (State.admits_of_slotWf hpending hs)
  have hrange : addr.toNat + qty.toNat ≤ m.holding.length := hlen ▸ hin
  exact ⟨t, memRead m.holding addr.toNat qty.toNat, r, hstep, hmap, hslot,
    memRead_length _ _ _ hrange, fun k hk => memRead_getElem? _ _ _ k hk, hout⟩

/-! ## Construction (R146) -/

/-- Settles O40: each space is as many copies of its default as its length, and the rest is what
`State.construct` writes. -/
theorem constructionResetValues : Obligations.ConstructionResetValues :=
  fun _ _ _ _ _ _ => ⟨rfl, rfl, rfl, rfl, rfl,
    fun _ => List.getElem?_replicate, fun _ => List.getElem?_replicate,
    fun _ => List.getElem?_replicate, fun _ => List.getElem?_replicate,
    rfl, rfl, rfl, rfl, rfl, rfl, rfl, rfl⟩

end Sys2Proof.Machine
end

section
/-! SUPPORT. The dispatcher (42_dispatcher.md): what the encoder may answer, what a transaction leaves when
its frame reaches no request of this block, and what it leaves when it serves one. -/

namespace Sys2Proof.Machine

/-! ## Every other function code (R167) -/

/-- Settles O9: the rule raises IllegalFunction, and an exception's PDU is two bytes. -/
theorem unsupportedCodeRaisesIllegalFunction : Obligations.UnsupportedCodeRaisesIllegalFunction :=
  fun s fc => ⟨congrArg Host.Outcome.next (raiseException_eq fc .illegalFunction s), rfl⟩

/-! ## No step stops, and every transaction returns to IDLE (R171, R291) -/

/-- Settles O28: every step is one of the moves. -/
theorem everyStepGoesOn : Obligations.EveryStepGoesOn := by
  intro s
  obtain ⟨t, ht, -⟩ := step_moves s
  exact ⟨t, ht⟩

theorem State.frameReady_of_serving_idle {s : State} (hp : s.phase = .serving) (hq : s.seq = .idle) :
    s.frameReady = true := by
  rw [State.frameReady, State.serving, hp, hq]
  rfl

/-- Settles O26: a transaction keeps the phase and ends IDLE. -/
theorem transactionReturnsToIdle : Obligations.TransactionReturnsToIdle := by
  intro f s hp
  obtain ⟨m, new, script, draws, -, h⟩ := processFrame_next f s
  exact ⟨_, h, rfl, hp, State.frameReady_of_serving_idle hp rfl⟩

/-! ## The encoder's answer (R170) -/

theorem drawnAnswer_admissible (cap k : Nat) : admissible cap (drawnAnswer cap k) = true := by
  unfold drawnAnswer
  split
  · assumption
  · rfl

theorem abstractAnswer_admissible (script : List EncoderAnswer) (cap k : Nat) :
    admissible cap (abstractAnswer script cap k) = true := by
  unfold abstractAnswer
  split
  · exact drawnAnswer_admissible cap k
  · split
    · assumption
    · exact drawnAnswer_admissible cap k

theorem abstractAnswer_of_admissible {a : EncoderAnswer} {cap : Nat} (more : List EncoderAnswer) (k : Nat)
    (ha : admissible cap a = true) : abstractAnswer (a :: more) cap k = a :=
  if_pos ha

theorem informativeAnswer_of_fits {r : Reply} {cap : Nat} (k : Nat) (he : r.encodable = true)
    (h : r.aduLength ≤ cap) : informativeAnswer r cap k = .ok r.aduLength :=
  (if_pos he).trans (if_pos h)

theorem informativeAnswer_of_exceeds {r : Reply} {cap : Nat} (k : Nat) (he : r.encodable = true)
    (h : cap < r.aduLength) : informativeAnswer r cap k = .encodeError (Config.encoderError k) :=
  (if_pos he).trans (if_neg (Nat.not_le.2 h))

/-- An ADU's length, where it is the answer, is at least its slave byte and at most the capacity. -/
theorem informativeAnswer_admissible (r : Reply) (cap k : Nat) :
    admissible cap (informativeAnswer r cap k) = true := by
  by_cases he : r.encodable = true
  · by_cases h : r.aduLength ≤ cap
    · have hpos : 1 ≤ r.aduLength := by rw [Reply.aduLength]; omega
      rw [informativeAnswer_of_fits k he h, admissible, decide_eq_true hpos, decide_eq_true h]
      rfl
    · rw [informativeAnswer_of_exceeds k he (Nat.not_le.1 h)]
      rfl
  · rw [informativeAnswer, if_neg he]
    exact drawnAnswer_admissible cap k

theorem encoderAnswer_of_abstract {s : State} (r : Reply) (cap : Nat) (h : s.codec = .abstract) :
    encoderAnswer r cap s = abstractAnswer s.encRsp cap s.draws := by
  rw [encoderAnswer, h]

theorem encoderAnswer_of_informative {s : State} (r : Reply) (cap : Nat) (h : s.codec = .informative) :
    encoderAnswer r cap s = informativeAnswer r cap s.draws := by
  rw [encoderAnswer, h]

theorem encoderAnswer_admissible (r : Reply) (cap : Nat) (s : State) :
    admissible cap (encoderAnswer r cap s) = true := by
  cases hc : s.codec with
  | abstract =>
    rw [encoderAnswer_of_abstract r cap hc]
    exact abstractAnswer_admissible ..
  | informative =>
    rw [encoderAnswer_of_informative r cap hc]
    exact informativeAnswer_admissible ..

/-- Settles O25, by which encoder is attached. -/
theorem encoderAnswersAdmissibly : Obligations.EncoderAnswersAdmissibly := by
  intro s r cap
  refine ⟨encoderAnswer_admissible r cap s, fun a more hc hs ha => ?_,
    fun hc he => ⟨fun h => ?_, fun h => ?_⟩⟩
  · rw [encoderAnswer_of_abstract r cap hc, hs]
    exact abstractAnswer_of_admissible more s.draws ha
  · rw [encoderAnswer_of_informative r cap hc]
    exact informativeAnswer_of_fits s.draws he h
  · rw [encoderAnswer_of_informative r cap hc]
    exact ⟨_, informativeAnswer_of_exceeds s.draws he h⟩

/-! ## A frame that reaches no request of this block (R162, R163, R164) -/

/-- What a transaction sends on a frame that reaches no request of this block. -/
def silentOutputs (observer : Bool) : DecodeOutcome → List Output
  | .noFrame => [.result (.ok false 0)]
  | .decodeError e => observed observer (.decodeFailed e) ++ [.result (.err (.frameDecodeFailed e))]
  | .decoded _ _ => [.result (.ok false 0)]

/-- What such a transaction leaves: the POLL's effect, what was sent, and the end of the frame. -/
def State.endedSilently (new : List Output) (s : State) : State :=
  { s with map := s.slot.getD s.map, slot := none, outputs := s.outputs ++ new, seq := .idle
           target := none, req := none, reply := none, result := none }

theorem processFrame_of_silent {f : Frame} {s : State} (h : silentFor s.slaveId f.outcome = true) :
    processFrame f s = .next (s.endedSilently (silentOutputs s.observer f.outcome)) := by
  rw [processFrame_eq]
  obtain ⟨outcome, cap⟩ := f
  cases outcome with
  | noFrame => rfl
  | decodeError e =>
    rw [State.endedSilently, silentOutputs, ← List.append_assoc]
    rfl
  | decoded t8 i =>
    have hother : t8 ≠ s.slaveId := bne_iff_ne.1 h
    exact if_neg hother

theorem frameResults_append (xs ys : List Output) :
    frameResults (xs ++ ys) = frameResults xs ++ frameResults ys :=
  List.filter_append ..

theorem encRequests_append (xs ys : List Output) :
    encRequests (xs ++ ys) = encRequests xs ++ encRequests ys :=
  List.filter_append ..

theorem frameResults_silentOutputs (observer : Bool) (o : DecodeOutcome) :
    (frameResults (silentOutputs observer o)).length = 1 := by
  cases o with
  | noFrame => rfl
  | decodeError e =>
    rw [silentOutputs, frameResults_append, frameResults_observed]
    rfl
  | decoded t8 i => rfl

theorem encRequests_silentOutputs (observer : Bool) (o : DecodeOutcome) :
    encRequests (silentOutputs observer o) = [] := by
  cases o with
  | noFrame => rfl
  | decodeError e =>
    rw [silentOutputs, encRequests_append, encRequests_observed]
    rfl
  | decoded t8 i => rfl

theorem step_of_silent {s : State} {o : DecodeOutcome} {cap : Nat} {rest : List Frame}
    (hp : s.phase = .serving) (hq : s.seq = .idle) (hb : s.blockNext = true)
    (hf : s.frames = ⟨o, cap⟩ :: rest) (ha : o.admitted = true) (h : silentFor s.slaveId o = true) :
    step s = .next
      { s with turns := s.turns.tail, frames := rest, map := s.slot.getD s.map, slot := none
               outputs := s.outputs ++ silentOutputs s.observer o
               target := none, req := none, reply := none, result := none } := by
  rw [step_takes_frame s _ rest hp hq hb hf ha, processFrame_of_silent h, State.endedSilently, ← hq]

/-- Settles O21: neither outcome is a request, and the port admits both. -/
theorem noRequestNoReply : Obligations.NoRequestNoReply := by
  intro s o cap rest hp hq hb hf
  refine ⟨?_, ?_⟩
  · rintro rfl
    exact step_of_silent hp hq hb hf rfl rfl
  · rintro e rfl
    rw [step_of_silent hp hq hb hf rfl rfl, silentOutputs, ← List.append_assoc]

/-! ## A request for this block (R165, R168, R169) -/

/-- `s` with all that a rule of DISPATCH reads, the map, the lengths and the observer, as `v` has it. -/
def State.seeing (s v : State) : State :=
  { s with lenC := v.lenC, lenD := v.lenD, lenH := v.lenH, lenI := v.lenI
           map := v.map, observer := v.observer }

/-- Wherever `run` sees what `v` has, it leaves the map `m`, replies `r` and sends the events `ev`, and it
changes nothing else. -/
def Serves (v : State) (run : State → Host.Outcome State Fault Refusal) (m : RegMap) (r : Reply)
    (ev : List Output) : Prop :=
  encRequests ev = [] ∧ frameResults ev = [] ∧
    ∀ s : State, run (s.seeing v) =
      .next { s.seeing v with map := m, reply := some r, outputs := s.outputs ++ ev }

section Arms

variable (v : State) (fc : Byte)

theorem raiseException_serves (kind : ExcKind) :
    Serves v (fun s => .next (raiseException fc kind s)) v.map (.excResp fc kind)
      (observed v.observer (.exception fc kind)) :=
  ⟨encRequests_observed .., frameResults_observed .., fun _ => rfl⟩

/-- A success reply goes without an event. -/
theorem answer_serves (r : Reply) : Serves v (fun s => .next (answer r s)) v.map r [] := by
  refine ⟨rfl, rfl, fun s => ?_⟩
  rw [List.append_nil]
  rfl

theorem answerBits_serves (r : Except ExcKind (List Bool)) :
    ∃ m reply ev, Serves v (answerBits fc r) m reply ev := by
  cases r with
  | error kind => exact ⟨_, _, _, raiseException_serves v fc kind⟩
  | ok bits => exact ⟨_, _, _, answer_serves v (.bitsResp fc bits (packBits bits))⟩

theorem answerWords_serves (r : Except ExcKind (List Word)) :
    ∃ m reply ev, Serves v (answerWords fc r) m reply ev := by
  cases r with
  | error kind => exact ⟨_, _, _, raiseException_serves v fc kind⟩
  | ok words => exact ⟨_, _, _, answer_serves v (.wordsResp fc words)⟩

theorem answerWrite_serves (r : Except ExcKind RegMap) (sp : Space) (addr qty : Word) (ok : Reply) :
    ∃ m reply ev, Serves v (answerWrite fc r sp addr qty ok) m reply ev := by
  cases r with
  | error kind => exact ⟨_, _, _, raiseException_serves v fc kind⟩
  | ok m =>
    exact ⟨m, ok, observed v.observer (.writeApplied sp addr qty), encRequests_observed ..,
      frameResults_observed .., fun _ => rfl⟩

end Arms

/-- Each rule answers from its accessor, and the accessors read the map and the lengths alone. -/
theorem exec_serves (i : Instr) (v : State) : ∃ m r ev, Serves v (exec i) m r ev := by
  cases i with
  | readCoils addr qty => exact answerBits_serves v _ (readCoils addr qty v)
  | readDiscreteInputs addr qty => exact answerBits_serves v _ (readDiscreteInputs addr qty v)
  | readHoldingRegisters addr qty => exact answerWords_serves v _ (readHoldingRegisters addr qty v)
  | readInputRegisters addr qty => exact answerWords_serves v _ (readInputRegisters addr qty v)
  | writeSingleCoil addr b => exact answerWrite_serves v _ (writeSingleCoil addr b v) _ _ _ _
  | writeSingleRegister addr w => exact answerWrite_serves v _ (writeSingleRegister addr w v) _ _ _ _
  | writeMultipleCoils addr qty vs => exact answerWrite_serves v _ (writeMultipleCoils addr vs v) _ _ _ _
  | writeMultipleRegisters addr qty vs =>
    exact answerWrite_serves v _ (writeMultipleRegisters addr vs v) _ _ _ _
  | unsupported fc => exact ⟨_, _, _, raiseException_serves v fc .illegalFunction⟩

/-- The state a POLL of `s` leaves, as far as a request reads it. -/
def State.polled (s : State) : State := { s with map := s.slot.getD s.map }

/-- What ENCODE sends for the reply `r`: the encode request, then the result its answer decides. -/
def replyOutputs (r : Reply) (cap : Nat) (s : State) : List Output :=
  [.encReq s.slaveId r cap, .result (resultOf (encoderAnswer r cap s))]

/-- What a transaction leaves that served a request with the map `m`, the reply `r` and the events `ev`. -/
def State.endedServed (cap : Nat) (m : RegMap) (r : Reply) (ev : List Output) (s : State) : State :=
  { s.takeAnswer with map := m, slot := none, outputs := s.outputs ++ (ev ++ replyOutputs r cap s)
                      seq := .idle, target := none, req := none, reply := none, result := none }

/-- The state in FILTER, after the POLL and DECODE of the request `i` for this block (R163, R164). -/
def State.filtered (i : Instr) (s : State) : State :=
  { s with map := s.slot.getD s.map, slot := none
           target := some s.slaveId, req := some i, seq := .filter }

theorem processFrame_of_request (i : Instr) (cap : Nat) (s : State) :
    processFrame ⟨.decoded s.slaveId i, cap⟩ s = dispatchStep i cap (s.filtered i) := by
  rw [processFrame_eq]
  exact if_pos rfl

theorem processFrame_of_serves {s : State} {i : Instr} {m : RegMap} {r : Reply} {ev : List Output}
    (cap : Nat) (h : Serves s.polled (exec i) m r ev) :
    processFrame ⟨.decoded s.slaveId i, cap⟩ s = .next (s.endedServed cap m r ev) := by
  obtain ⟨-, -, hexec⟩ := h
  have hu := hexec ((s.filtered i).setSeq .dispatch)
  rw [processFrame_of_request, State.endedServed, ← List.append_assoc]
  exact dispatchStep_of_exec i cap (s.filtered i) _ r hu rfl

theorem step_of_serves {s : State} {i : Instr} {cap : Nat} {rest : List Frame} {m : RegMap} {r : Reply}
    {ev : List Output} (hp : s.phase = .serving) (hq : s.seq = .idle) (hb : s.blockNext = true)
    (hf : s.frames = ⟨.decoded s.slaveId i, cap⟩ :: rest) (hw : i.wellFormed = true)
    (h : Serves s.polled (exec i) m r ev) :
    step s = .next (State.endedServed cap m r ev { s with turns := s.turns.tail, frames := rest }) :=
  (step_takes_frame s _ rest hp hq hb hf hw).trans
    (processFrame_of_serves (s := { s with turns := s.turns.tail, frames := rest }) cap h)

section Served

variable {v : State} {run : State → Host.Outcome State Fault Refusal} {m : RegMap} {r : Reply}
  {ev : List Output} (h : Serves v run m r ev) (cap : Nat) (s : State)
include h

theorem Serves.encRequests_append_replyOutputs :
    encRequests (ev ++ replyOutputs r cap s) = [.encReq s.slaveId r cap] := by
  obtain ⟨hreq, -, -⟩ := h
  rw [encRequests_append, hreq]
  rfl

theorem Serves.frameResults_append_replyOutputs :
    (frameResults (ev ++ replyOutputs r cap s)).length = 1 := by
  obtain ⟨-, hres, -⟩ := h
  rw [frameResults_append, hres]
  rfl

end Served

theorem outcomeOfAdu_of_decodeAdu {bytes : List Byte} {t8 : Byte} {i : Instr}
    (h : decodeAdu bytes = .ok (some (t8, i))) : outcomeOfAdu bytes = .decoded t8 i := by
  rw [outcomeOfAdu, h]

/-- Settles O20: `exec` always goes on with a reply, and `step_of_exec` says what the step makes of it. -/
theorem stepRunsDecodedRequest : Obligations.StepRunsDecodedRequest := by
  refine ⟨fun _ _ _ => outcomeOfAdu_of_decodeAdu, fun s i cap rest hp hq hb hf hw => ?_⟩
  obtain ⟨m, r, new, -, -, -, hu⟩ := exec_next i (s.dispatching i rest)
  exact ⟨_, r, hu, rfl, step_of_exec hp hq hb hf hw hu rfl⟩

/-- Settles O22: another target is silent, and the own one is served. -/
theorem filterComparesTargetOnly : Obligations.FilterComparesTargetOnly := by
  intro s t8 i cap rest hp hq hb hw hf
  refine ⟨fun hother => step_of_silent hp hq hb hf hw (bne_iff_ne.2 hother), ?_⟩
  rintro rfl
  obtain ⟨m, r, ev, h⟩ := exec_serves i s.polled
  exact ⟨_, ev ++ replyOutputs r cap s, r, step_of_serves hp hq hb hf hw h, rfl,
    h.encRequests_append_replyOutputs cap s⟩

/-- Settles O23: the request is served the same on the polled map and inside the step, and ENCODE leaves
the map alone. -/
theorem encoderAnswerDecidesResultOnly : Obligations.EncoderAnswerDecidesResultOnly := by
  intro s i cap rest hp hq hb hw hf
  obtain ⟨m, r, ev, h⟩ := exec_serves i s.polled
  have ⟨_, _, hexec⟩ := h
  exact ⟨_, r, _, hexec s, rfl, step_of_serves hp hq hb hf hw h, rfl, (List.append_assoc ..).symm⟩

/-! ## Whatever the frame (R173, R174) -/

/-- A frame that reaches a request of this block carries one, addressed to it. -/
theorem decoded_of_not_silent {slave : Byte} {o : DecodeOutcome} (h : silentFor slave o = false) :
    ∃ i, o = .decoded slave i := by
  cases o with
  | noFrame => exact nomatch h
  | decodeError e => exact nomatch h
  | decoded t8 i => exact ⟨i, by rw [bne_eq_false_iff_eq.1 h]⟩

/-- Settles O27, by whether the frame reaches a request of this block. -/
theorem atMostOneReplyPerTransaction : Obligations.AtMostOneReplyPerTransaction := by
  intro f s
  cases hf : silentFor s.slaveId f.outcome with
  | true =>
    exact ⟨_, _, processFrame_of_silent hf, rfl, frameResults_silentOutputs ..,
      fun _ => encRequests_silentOutputs .., nofun⟩
  | false =>
    obtain ⟨o, cap⟩ := f
    obtain ⟨i, rfl⟩ := decoded_of_not_silent hf
    obtain ⟨m, r, ev, h⟩ := exec_serves i s.polled
    exact ⟨_, _, processFrame_of_serves cap h, rfl, h.frameResults_append_replyOutputs cap s,
      nofun, fun _ => ⟨r, h.encRequests_append_replyOutputs cap s⟩⟩

/-- A silent transaction has done the POLL the next one would do, and every transient register it clears
is one the next writes before it reads it. -/
theorem processFrame_after_endedSilently (f : Frame) (s : State) :
    ∃ t new, processFrame f s = .next t ∧ t.outputs = s.outputs ++ new ∧
      ∀ sent, processFrame f (s.endedSilently sent) =
        .next { t with outputs := (s.endedSilently sent).outputs ++ new } := by
  cases hf : silentFor s.slaveId f.outcome with
  | true =>
    refine ⟨_, _, processFrame_of_silent hf, rfl, fun sent => ?_⟩
    exact processFrame_of_silent (s := s.endedSilently sent) hf
  | false =>
    obtain ⟨o, cap⟩ := f
    obtain ⟨i, rfl⟩ := decoded_of_not_silent hf
    obtain ⟨m, r, ev, h⟩ := exec_serves i s.polled
    refine ⟨_, _, processFrame_of_serves cap h, rfl, fun sent => ?_⟩
    exact processFrame_of_serves (s := s.endedSilently sent) cap h

/-- Settles O35: the silent frame's end is `State.endedSilently`. -/
theorem silentFrameChangesNoLaterReply : Obligations.SilentFrameChangesNoLaterReply := by
  intro f0 f s h0
  obtain ⟨t, new, ht, hout, hnext⟩ := processFrame_after_endedSilently f s
  exact ⟨_, t, new, processFrame_of_silent h0, ht, hout, hnext _⟩

end Sys2Proof.Machine
end

section
/-! SUPPORT. The read requests (43_read_requests.md): each is one bounded read of its space, answered with
the elements or with IllegalDataAddress, and the master reads a register-read reply back. -/

namespace Sys2Proof.Machine

section Range

variable {α : Type}

/-! ## The accessors' one read (R123 to R126) -/

/-- What the four read accessors do, each on its own length register and space. -/
def readRange (len : Word) (xs : List α) (addr qty : Word) : Except ExcKind (List α) :=
  if valid len addr.toNat qty.toNat then .ok (memRead xs addr.toNat qty.toNat)
  else .error .illegalDataAddress

theorem readRange_of_le {len : Word} (xs : List α) {addr qty : Word}
    (h : addr.toNat + qty.toNat ≤ len.toNat) :
    readRange len xs addr qty = .ok (memRead xs addr.toNat qty.toNat) :=
  if_pos ((valid_iff len addr.toNat qty.toNat).2 h)

theorem readRange_of_lt {len : Word} (xs : List α) {addr qty : Word}
    (h : len.toNat < addr.toNat + qty.toNat) :
    readRange len xs addr qty = .error .illegalDataAddress := by
  rw [readRange, (valid_eq_false_iff len addr.toNat qty.toNat).2 h]
  rfl

/-! ## What a read rule makes of its accessor's value (R165, R166) -/

/-- `respond` replies `reply xs` to the elements `xs` and raises a failure under the function code `fc`. -/
structure RepliesOrRaises (fc : Byte) (reply : List α → Reply)
    (respond : Except ExcKind (List α) → State → Host.Outcome State Fault Refusal) : Prop where
  ok : ∀ xs s, respond (.ok xs) s = .next { s with reply := some (reply xs) }
  error : ∀ kind s, respond (.error kind) s = .next (raiseException fc kind s)

theorem answerBits_repliesOrRaises (fc : Byte) :
    RepliesOrRaises fc (fun bits => .bitsResp fc bits (packBits bits)) (answerBits fc) :=
  ⟨fun _ _ => rfl, fun _ _ => rfl⟩

theorem answerWords_repliesOrRaises (fc : Byte) :
    RepliesOrRaises fc (fun words => .wordsResp fc words) (answerWords fc) :=
  ⟨fun _ _ => rfl, fun _ _ => rfl⟩

/-- Inside a space that has its configured length the reply holds exactly the range; past its end the
exception is raised; either way nothing else changes. -/
theorem RepliesOrRaises.answers_range {fc : Byte} {reply : List α → Reply}
    {respond : Except ExcKind (List α) → State → Host.Outcome State Fault Refusal}
    (hr : RepliesOrRaises fc reply respond) (s : State) {len : Word} {xs : List α} (addr qty : Word)
    (hlen : xs.length = len.toNat) :
    (addr.toNat + qty.toNat ≤ len.toNat → ∃ ys : List α,
      ys.length = qty.toNat ∧
      (∀ k, k < qty.toNat → ys[k]? = xs[addr.toNat + k]?) ∧
      respond (readRange len xs addr qty) s = .next { s with reply := some (reply ys) }) ∧
    (len.toNat < addr.toNat + qty.toNat →
      respond (readRange len xs addr qty) s = .next
        { s with reply := some (.excResp fc .illegalDataAddress)
                 outputs := s.outputs ++ observed s.observer (.exception fc .illegalDataAddress) }) := by
  constructor
  · intro hin
    refine ⟨memRead xs addr.toNat qty.toNat, memRead_length _ _ _ (hlen ▸ hin),
      fun k hk => memRead_getElem? _ _ _ k hk, ?_⟩
    rw [readRange_of_le xs hin, hr.ok]
  · intro hpast
    rw [readRange_of_lt xs hpast, hr.error, raiseException_eq]

end Range

/-! ## The four read requests (R190 to R193) -/

theorem exec_readCoils_eq (addr qty : Word) (s : State) :
    exec (.readCoils addr qty) s = answerBits 0x01#8 (readRange s.lenC s.map.coils addr qty) s := rfl

theorem exec_readDiscreteInputs_eq (addr qty : Word) (s : State) :
    exec (.readDiscreteInputs addr qty) s =
      answerBits 0x02#8 (readRange s.lenD s.map.discrete addr qty) s := rfl

theorem exec_readHoldingRegisters_eq (addr qty : Word) (s : State) :
    exec (.readHoldingRegisters addr qty) s =
      answerWords 0x03#8 (readRange s.lenH s.map.holding addr qty) s := rfl

theorem exec_readInputRegisters_eq (addr qty : Word) (s : State) :
    exec (.readInputRegisters addr qty) s =
      answerWords 0x04#8 (readRange s.lenI s.map.input addr qty) s := rfl

/-- Settles O1: a bounded read of COILS, whose length is C. -/
theorem readCoilsAnswersRangeOrRaises : Obligations.ReadCoilsAnswersRangeOrRaises := by
  intro s addr qty hw
  obtain ⟨hC, -, -, -⟩ := (State.admits_iff s s.map).1 hw
  rw [exec_readCoils_eq]
  exact ⟨rfl, (answerBits_repliesOrRaises 0x01#8).answers_range s addr qty hC⟩

/-- Settles O2: a bounded read of DISCRETE, whose length is D. -/
theorem readDiscreteInputsAnswersRangeOrRaises :
    Obligations.ReadDiscreteInputsAnswersRangeOrRaises := by
  intro s addr qty hw
  obtain ⟨-, hD, -, -⟩ := (State.admits_iff s s.map).1 hw
  rw [exec_readDiscreteInputs_eq]
  exact ⟨rfl, (answerBits_repliesOrRaises 0x02#8).answers_range s addr qty hD⟩

/-- Settles O3: a bounded read of HOLDING, whose length is H. -/
theorem readHoldingRegistersAnswersRangeOrRaises :
    Obligations.ReadHoldingRegistersAnswersRangeOrRaises := by
  intro s addr qty hw
  obtain ⟨-, -, hH, -⟩ := (State.admits_iff s s.map).1 hw
  rw [exec_readHoldingRegisters_eq]
  exact ⟨rfl, (answerWords_repliesOrRaises 0x03#8).answers_range s addr qty hH⟩

/-- Settles O4: a bounded read of INPUT, whose length is I. -/
theorem readInputRegistersAnswersRangeOrRaises :
    Obligations.ReadInputRegistersAnswersRangeOrRaises := by
  intro s addr qty hw
  obtain ⟨-, -, -, hI⟩ := (State.admits_iff s s.map).1 hw
  rw [exec_readInputRegisters_eq]
  exact ⟨rfl, (answerWords_repliesOrRaises 0x04#8).answers_range s addr qty hI⟩

/-! ## The master's side of a register read (R194, R98) -/

/-- Settles O48: the byte count survives its one byte, so the data are found whole. -/
theorem wordsReplyRoundTrip : Obligations.WordsReplyRoundTrip := by
  intro fc words hfits
  have hle : 2 * words.length ≤ 255 := of_decide_eq_true hfits
  have hcount : (BitVec.ofNat 8 (2 * words.length)).toNat = (wordsBytes words).length := by
    rw [wordsBytes_length]
    exact Nat.mod_eq_of_lt (by omega)
  rw [encodeReply, decodeWordsResp, if_pos hcount, bytesWords_wordsBytes]

end Sys2Proof.Machine
end

section
/-! SUPPORT. The write requests (44_write_requests.md): each is one bounded write of its space, answered
with the success reply and its event or with IllegalDataAddress. A single write is the one-element range. -/

namespace Sys2Proof.Machine

section Range

variable {α : Type} {put : List α → RegMap} {xs : List α}

/-! ## The accessors' one write (R127 to R130) -/

/-- What the four write accessors do, each on its own length register and space; `put` places the space's
new elements in the map. -/
def writeRange (put : List α → RegMap) (xs : List α) (len addr : Word) (values : List α) :
    Except ExcKind RegMap :=
  if valid len addr.toNat values.length then .ok (put (memWrite xs addr.toNat values))
  else .error .illegalDataAddress

theorem writeRange_of_le {len addr : Word} {values : List α}
    (h : addr.toNat + values.length ≤ len.toNat) :
    writeRange put xs len addr values = .ok (put (memWrite xs addr.toNat values)) :=
  if_pos ((valid_iff len addr.toNat values.length).2 h)

theorem writeRange_of_lt {len addr : Word} {values : List α}
    (h : len.toNat < addr.toNat + values.length) :
    writeRange put xs len addr values = .error .illegalDataAddress := by
  rw [writeRange, (valid_eq_false_iff len addr.toNat values.length).2 h]
  rfl

/-- A one-element write inside the space sets that element and leaves every other one alone. -/
theorem memWrite_singleton_getElem? (xs : List α) (v : α) {a : Nat} (h : a < xs.length) (i : Nat) :
    (memWrite xs a [v])[i]? = if i = a then some v else xs[i]? := by
  change (xs.set a v)[i]? = _
  rw [List.getElem?_set, if_pos h]
  exact if_congr eq_comm rfl rfl

/-! ## What a write rule makes of its accessor's value (R165, R166) -/

variable {len addr qty : Word} {values : List α} {fc : Byte} {sp : Space} {ok : Reply} {s : State}

theorem answerWrite_writeRange_of_le (h : addr.toNat + values.length ≤ len.toNat) :
    answerWrite fc (writeRange put xs len addr values) sp addr qty ok s = .next
      { s with map := put (memWrite xs addr.toNat values)
               reply := some ok
               outputs := s.outputs ++ observed s.observer (.writeApplied sp addr qty) } := by
  rw [writeRange_of_le h]
  rfl

theorem answerWrite_writeRange_of_lt (h : len.toNat < addr.toNat + values.length) :
    answerWrite fc (writeRange put xs len addr values) sp addr qty ok s = .next
      { s with reply := some (.excResp fc .illegalDataAddress)
               outputs := s.outputs ++ observed s.observer (.exception fc .illegalDataAddress) } := by
  rw [writeRange_of_lt h, answerWrite, raiseException_eq]

end Range

/-! ## The four write requests (R210 to R213) -/

/-- The map with other coils. -/
def RegMap.withCoils (m : RegMap) (coils : List Bool) : RegMap := { m with coils := coils }

/-- The map with other holding registers. -/
def RegMap.withHolding (m : RegMap) (holding : List Word) : RegMap := { m with holding := holding }

theorem exec_writeSingleCoil_eq (addr : Word) (v : Bool) (s : State) :
    exec (.writeSingleCoil addr v) s =
      answerWrite 0x05#8 (writeRange s.map.withCoils s.map.coils s.lenC addr [v]) .coils addr 1#16
        (.echoCoilResp addr v) s := rfl

theorem exec_writeSingleRegister_eq (addr v : Word) (s : State) :
    exec (.writeSingleRegister addr v) s =
      answerWrite 0x06#8 (writeRange s.map.withHolding s.map.holding s.lenH addr [v]) .holding addr 1#16
        (.echoRegResp addr v) s := rfl

theorem exec_writeMultipleCoils_eq (addr qty : Word) (values : List Bool) (s : State) :
    exec (.writeMultipleCoils addr qty values) s =
      answerWrite 0x0F#8 (writeRange s.map.withCoils s.map.coils s.lenC addr values) .coils addr qty
        (.multiResp 0x0F#8 addr qty) s := rfl

theorem exec_writeMultipleRegisters_eq (addr qty : Word) (values : List Word) (s : State) :
    exec (.writeMultipleRegisters addr qty values) s =
      answerWrite 0x10#8 (writeRange s.map.withHolding s.map.holding s.lenH addr values) .holding addr qty
        (.multiResp 0x10#8 addr qty) s := rfl

/-- Settles O5: a bounded one-element write of COILS, whose length is C. -/
theorem writeSingleCoilWritesOneOrRaises : Obligations.WriteSingleCoilWritesOneOrRaises := by
  intro s addr v hw
  obtain ⟨hC, -, -, -⟩ := (State.admits_iff s s.map).1 hw
  rw [exec_writeSingleCoil_eq]
  refine ⟨rfl, fun hin => ?_, fun hpast => ?_⟩
  · exact ⟨_, memWrite_singleton_getElem? s.map.coils v (hC ▸ hin), answerWrite_writeRange_of_le hin⟩
  · exact answerWrite_writeRange_of_lt (Nat.lt_succ_of_le hpast)

/-- Settles O6: a bounded one-element write of HOLDING, whose length is H. -/
theorem writeSingleRegisterWritesOneOrRaises : Obligations.WriteSingleRegisterWritesOneOrRaises := by
  intro s addr v hw
  obtain ⟨-, -, hH, -⟩ := (State.admits_iff s s.map).1 hw
  rw [exec_writeSingleRegister_eq]
  refine ⟨rfl, fun hin => ?_, fun hpast => ?_⟩
  · exact ⟨_, memWrite_singleton_getElem? s.map.holding v (hH ▸ hin), answerWrite_writeRange_of_le hin⟩
  · exact answerWrite_writeRange_of_lt (Nat.lt_succ_of_le hpast)

/-- Settles O7: a bounded write of COILS, whose length is C. -/
theorem writeMultipleCoilsWritesAllOrRaises : Obligations.WriteMultipleCoilsWritesAllOrRaises := by
  intro s addr qty values hw hqty
  obtain ⟨hC, -, -, -⟩ := (State.admits_iff s s.map).1 hw
  refine ⟨fun _ => rfl, ?_⟩
  rw [exec_writeMultipleCoils_eq, ← hqty]
  refine ⟨fun hin => ?_, fun hpast => answerWrite_writeRange_of_lt hpast⟩
  exact ⟨_, fun a => memWrite_getElem? s.map.coils values addr.toNat a (hC ▸ hin),
    answerWrite_writeRange_of_le hin⟩

/-- Settles O8: a bounded write of HOLDING, whose length is H. -/
theorem writeMultipleRegistersWritesAllOrRaises :
    Obligations.WriteMultipleRegistersWritesAllOrRaises := by
  intro s addr qty values hw hqty
  obtain ⟨-, -, hH, -⟩ := (State.admits_iff s s.map).1 hw
  refine ⟨fun _ => rfl, ?_⟩
  rw [← hqty]
  refine ⟨fun hin => ?_, fun hpast => ?_⟩
  · exact ⟨_, fun a => memWrite_getElem? s.map.holding values addr.toNat a (hH ▸ hin),
      exec_writeMultipleRegisters_of_le qty hin⟩
  · rw [exec_writeMultipleRegisters_eq]
    exact answerWrite_writeRange_of_lt hpast

end Sys2Proof.Machine
end

section
/-! SUPPORT. Exceptions (60_exceptions.md): which exception a request raises follows from the one range its
accessor checks, and a request that raises one leaves the state it found but for the reply and its event. -/

namespace Sys2Proof.Machine

/-! ## Which exception a request raises (R250) -/

/-- The range a request's accessor checks. It is `requestRange`, but that a multiple write is checked for
the values it carries (R129, R130; log 16). -/
def checkedRange : Instr → Option (Space × Nat × Nat)
  | .writeMultipleCoils addr _ values => some (.coils, addr.toNat, values.length)
  | .writeMultipleRegisters addr _ values => some (.holding, addr.toNat, values.length)
  | i => requestRange i

/-- An admitted record carries as many values as its quantity says (R86). -/
theorem checkedRange_of_wellFormed {i : Instr} (hw : i.wellFormed = true) :
    checkedRange i = requestRange i := by
  cases i with
  | writeMultipleCoils addr qty values =>
    have hqty : values.length = qty.toNat := eq_of_beq hw
    rw [checkedRange, requestRange, hqty]
  | writeMultipleRegisters addr qty values =>
    have hqty : values.length = qty.toNat := eq_of_beq hw
    rw [checkedRange, requestRange, hqty]
  | _ => rfl

/-- The exception that the checked range gives in `s`: a request without a range has no function code of
the eight, and a range is checked by the validator alone (R250, R255). -/
def State.raisedKind (s : State) : Option (Space × Nat × Nat) → Option ExcKind
  | none => some .illegalFunction
  | some (sp, a, n) => if valid (s.len sp) a n then none else some .illegalDataAddress

theorem State.raisedKind_of_le {s : State} {sp : Space} {a n : Nat} (h : a + n ≤ (s.len sp).toNat) :
    s.raisedKind (some (sp, a, n)) = none :=
  if_pos ((valid_iff (s.len sp) a n).2 h)

theorem State.raisedKind_of_lt {s : State} {sp : Space} {a n : Nat} (h : (s.len sp).toNat < a + n) :
    s.raisedKind (some (sp, a, n)) = some .illegalDataAddress := by
  rw [State.raisedKind, (valid_eq_false_iff (s.len sp) a n).2 h]
  rfl

/-! ## What a request leaves, whether or not it raises (R165, R166, R256) -/

/-- `t` is what a request with function code `fc` leaves of `s`, by the exception it raises. -/
inductive Answered (fc : Byte) (s : State) : Option ExcKind → State → Prop
  | raised (kind : ExcKind) : Answered fc s (some kind) (raiseException fc kind s)
  | replied (t : State) (h : isException t.reply = false) : Answered fc s none t

theorem Answered.reply_of_some {fc : Byte} {s t : State} {kind : ExcKind}
    (h : Answered fc s (some kind) t) : t.reply = some (.excResp fc kind) := by
  cases h with
  | raised => rfl

theorem Answered.not_isException_of_none {fc : Byte} {s t : State} (h : Answered fc s none t) :
    isException t.reply = false := by
  cases h with
  | replied _ hreply => exact hreply

/-- An exception reply in the end means that the state was reached by raising it, and by nothing else. -/
theorem Answered.eq_raiseException {fc fc' : Byte} {s t : State} {raised : Option ExcKind}
    {kind : ExcKind} (h : Answered fc s raised t) (hr : t.reply = some (.excResp fc' kind)) :
    t = raiseException fc' kind s := by
  cases h with
  | raised =>
    cases hr
    rfl
  | replied _ hreply =>
    rw [hr] at hreply
    cases hreply

theorem RepliesOrRaises.answered {α : Type} {fc : Byte} {reply : List α → Reply}
    {respond : Except ExcKind (List α) → State → Host.Outcome State Fault Refusal}
    (hr : RepliesOrRaises fc reply respond) (hreply : ∀ xs, isException (some (reply xs)) = false)
    (s : State) (sp : Space) (xs : List α) (addr qty : Word) :
    ∃ t, respond (readRange (s.len sp) xs addr qty) s = .next t ∧
      Answered fc s (s.raisedKind (some (sp, addr.toNat, qty.toNat))) t := by
  rw [readRange, State.raisedKind]
  split
  · exact ⟨_, hr.ok _ s, .replied _ (hreply _)⟩
  · exact ⟨_, hr.error _ s, .raised _⟩

theorem answerWrite_answered {α : Type} {ok : Reply} (hok : isException (some ok) = false) (fc : Byte)
    (s : State) (sp : Space) (put : List α → RegMap) (xs : List α) (addr qty : Word)
    (values : List α) :
    ∃ t, answerWrite fc (writeRange put xs (s.len sp) addr values) sp addr qty ok s = .next t ∧
      Answered fc s (s.raisedKind (some (sp, addr.toNat, values.length))) t := by
  rw [writeRange, State.raisedKind]
  split
  · exact ⟨_, rfl, .replied _ hok⟩
  · exact ⟨_, rfl, .raised _⟩

/-- Every request is answered as the range its accessor checks says. -/
theorem exec_answered (i : Instr) (s : State) :
    ∃ t, exec i s = .next t ∧ Answered i.functionCode s (s.raisedKind (checkedRange i)) t := by
  cases i with
  | readCoils addr qty =>
    rw [exec_readCoils_eq]
    exact (answerBits_repliesOrRaises 0x01#8).answered (fun _ => rfl) s .coils _ addr qty
  | readDiscreteInputs addr qty =>
    rw [exec_readDiscreteInputs_eq]
    exact (answerBits_repliesOrRaises 0x02#8).answered (fun _ => rfl) s .discrete _ addr qty
  | readHoldingRegisters addr qty =>
    rw [exec_readHoldingRegisters_eq]
    exact (answerWords_repliesOrRaises 0x03#8).answered (fun _ => rfl) s .holding _ addr qty
  | readInputRegisters addr qty =>
    rw [exec_readInputRegisters_eq]
    exact (answerWords_repliesOrRaises 0x04#8).answered (fun _ => rfl) s .input _ addr qty
  | writeSingleCoil addr v =>
    rw [exec_writeSingleCoil_eq]
    exact answerWrite_answered rfl 0x05#8 s .coils _ _ addr 1#16 [v]
  | writeSingleRegister addr v =>
    rw [exec_writeSingleRegister_eq]
    exact answerWrite_answered rfl 0x06#8 s .holding _ _ addr 1#16 [v]
  | writeMultipleCoils addr qty values =>
    rw [exec_writeMultipleCoils_eq]
    exact answerWrite_answered rfl 0x0F#8 s .coils _ _ addr qty values
  | writeMultipleRegisters addr qty values =>
    rw [exec_writeMultipleRegisters_eq]
    exact answerWrite_answered rfl 0x10#8 s .holding _ _ addr qty values
  | unsupported fc => exact ⟨_, rfl, .raised _⟩

/-- Settles O10: an admitted request's checked range is the one it names, and the validator is the exact
bound. -/
theorem exceptionExactlyByCodeOrRange : Obligations.ExceptionExactlyByCodeOrRange := by
  refine ⟨rfl, rfl, fun i s hw => ?_⟩
  obtain ⟨t, ht, h⟩ := exec_answered i s
  rw [checkedRange_of_wellFormed hw] at h
  refine ⟨t, ht, fun hnone => ?_, fun sp a n hrange => ⟨fun hpast => ?_, fun hin => ?_⟩⟩
  · rw [hnone] at h
    exact h.reply_of_some
  · rw [hrange, State.raisedKind_of_lt hpast] at h
    exact h.reply_of_some
  · rw [hrange, State.raisedKind_of_le hin] at h
    exact h.not_isException_of_none

/-- Settles O11: only raising an exception leaves an exception reply, and raising changes nothing else. -/
theorem exceptionChangesNoElement : Obligations.ExceptionChangesNoElement := by
  intro i s
  obtain ⟨t, ht, h⟩ := exec_answered i s
  exact ⟨t, ht, fun fc kind hr => (h.eq_raiseException hr).trans (raiseException_eq fc kind s)⟩

end Sys2Proof.Machine
end

section
/-! SUPPORT. Reset and hazards (70_reset_and_hazards.md): a block that awaits init takes no frame, its first
publish lets it serve, and a write stays applied when its reply is lost. -/

namespace Sys2Proof.Machine

/-! ## Booting (R282) -/

/-- Settles O41: with an empty slot the constructed block's own move is an `init` that waits; the publish
fills the slot, and the same move then takes it. -/
theorem bootCompletesWithFirstPublish : Obligations.BootCompletesWithFirstPublish := by
  intro id c d h i m rest s hm
  have waits : step s = .next s :=
    (step_of_awaitInit rfl (.inl rfl)).trans (congrArg _ (initBlock_of_none rfl rfl))
  have publishes : step { s with turns := [.producer], publishes := m :: rest } =
      .next { s with turns := [], publishes := rest, slot := some m } := step_publishes rfl rfl hm
  have installs : step { s with turns := [], publishes := rest, slot := some m } =
      .next { s with publishes := rest, map := m, phase := .serving } :=
    (step_of_awaitInit rfl (.inl rfl)).trans (congrArg _ (initBlock_of_some rfl rfl))
  exact ⟨waits, _, publishes, rfl, rfl, installs⟩

/-! ## A frame presented before init (R161, R284) -/

/-- A transaction begins in SERVING only, so before init no move takes a frame, sends anything or asks the
encoder. -/
theorem Moves.keeps_ports_before_init {s t : State} (h : Moves s t) (hp : s.phase = .awaitInit) :
    t.frames = s.frames ∧ t.outputs = s.outputs ∧ t.encRsp = s.encRsp ∧ t.draws = s.draws := by
  cases h with
  | pass => exact ⟨rfl, rfl, rfl, rfl⟩
  | published => exact ⟨rfl, rfl, rfl, rfl⟩
  | initialised => exact ⟨rfl, rfl, rfl, rfl⟩
  | transaction m new script draws ts f fs hserving => exact nomatch hp.symm.trans hserving

/-- Before init a move keeps both the phase and the map, or it is the `init` that takes the pending
snapshot (R145). -/
theorem Moves.waits_or_installs {s t : State} (h : Moves s t) (hp : s.phase = .awaitInit) :
    t.phase = .awaitInit ∧ t.map = s.map ∨
      t.phase = .serving ∧ ∃ m, s.slot = some m ∧ t.map = m ∧ t.slot = none := by
  cases h with
  | pass => exact .inl ⟨hp, rfl⟩
  | published => exact .inl ⟨hp, rfl⟩
  | initialised m ts _ hs => exact .inr ⟨rfl, m, hs, rfl, rfl⟩
  | transaction m new script draws ts f fs hserving => exact nomatch hp.symm.trans hserving

/-- Settles O18, by what a move does to the ports and to the phase before init. -/
theorem nothingAnsweredBeforeInit : Obligations.NothingAnsweredBeforeInit := by
  intro s hp
  obtain ⟨t, ht, h⟩ := step_moves s
  obtain ⟨hframes, houtputs, hscript, hdraws⟩ := h.keeps_ports_before_init hp
  refine ⟨t, ht, hframes, houtputs, hscript, hdraws, ?_⟩
  rcases h.waits_or_installs hp with ⟨hphase, hmap⟩ | ⟨hphase, hinstalled⟩
  · exact ⟨fun hserving => (nomatch hphase.symm.trans hserving), fun _ => hmap⟩
  · exact ⟨fun _ => hinstalled, fun hawait => nomatch hphase.symm.trans hawait⟩

/-! ## A write whose reply is lost (R169, R285) -/

/-- The abstract encoder gives an admissible scripted answer as it stands, whatever the reply (R170). -/
theorem encoderAnswer_of_script {s : State} {a : EncoderAnswer} {more : List EncoderAnswer} {cap : Nat}
    (r : Reply) (hc : s.codec = .abstract) (hs : s.encRsp = a :: more) (ha : admissible cap a = true) :
    encoderAnswer r cap s = a := by
  rw [encoderAnswer_of_abstract r cap hc, hs, abstractAnswer_of_admissible more s.draws ha]

/-- Where the encoder fails, its error is the result, and the last transfer ENCODE makes (R169). -/
theorem State.replied_getLast?_of_encodeError {u : State} {r : Reply} {cap : Nat} {e : CodecError}
    (h : encoderAnswer r cap u = .encodeError e) :
    (u.replied cap r).outputs.getLast? = some (.result (.err (.responseEncodeFailed e))) := by
  rw [State.replied, List.getLast?_append_cons, h]
  rfl

/-- Settles O24: the polled map has the block's shape, so the write is the one R211 says, and ENCODE
leaves the map alone whatever the answer. -/
theorem writeKeptWhenReplyLost : Obligations.WriteKeptWhenReplyLost := by
  intro s addr v cap rest e more hinv hp hb hf hin hcodec hscript
  have ⟨hmem, hslot, _⟩ := hinv
  have hpolled : (s.dispatching (.writeSingleRegister addr v) rest).memoryWf = true :=
    State.admits_polledMap (s := s) hmem hslot
  obtain ⟨-, hwrite, -⟩ := writeSingleRegisterWritesOneOrRaises _ addr v hpolled
  obtain ⟨holding, hholding, hexec⟩ := hwrite hin
  exact ⟨_, step_of_exec hp (State.seq_idle_of_inv hinv) hb hf rfl hexec rfl,
    (hholding addr.toNat).trans (if_pos rfl),
    State.replied_getLast?_of_encodeError (encoderAnswer_of_script _ hcodec hscript rfl)⟩

end Sys2Proof.Machine
end
